-- ==== Sys2Proof/Word.lean ====
section
/-! DEFINITION. The word types of the hart (00_scope R8, R13): 64-bit registers, 32-bit instruction words, 8-bit bytes,
5-bit register numbers and 12-bit CSR addresses. -/

namespace Sys2Proof

/-- A register, `pc`, CSR or address value: XLEN = 64 bits (R8). -/
abbrev Word := BitVec 64

/-- A byte of memory (R46). -/
abbrev Byte := BitVec 8

/-- An instruction word: 32 bits always (R110). -/
abbrev InstrWord := BitVec 32

/-- A general register number, 0 to 31 (R20). -/
abbrev Reg := BitVec 5

/-- A CSR address, 0 to 4095 (R29). -/
abbrev CsrAddr := BitVec 12

end Sys2Proof
end

