-- ==== Sys2Proof/Syntax.lean ====
section
/-! DEFINITION. The instructions: one constructor per row of spec/opcode_table.json, 59 rows (30_encoding R125, R126). An
immediate is the field as the instruction's rule names it: a 12-bit I or S immediate, a 13-bit B or 21-bit J byte offset (bit 0
included), the 20-bit field of a U format, a 6- or 5-bit shift amount, a 5-bit `uimm` (R118 to R123). FENCE and JALR keep the
fields that the hardware ignores (R130, log 12), so that an instruction says which word it was. -/

namespace Sys2Proof

inductive Instr where
  /-- R140. -/
  | lui (rd : Reg) (imm20 : BitVec 20)
  /-- R141. -/
  | auipc (rd : Reg) (imm20 : BitVec 20)
  /-- R150. -/
  | jal (rd : Reg) (off : BitVec 21)
  /-- R151; `funct3` is not examined (D31). -/
  | jalr (rd rs1 : Reg) (imm : BitVec 12) (funct3 : BitVec 3)
  /-- R152. -/
  | beq (rs1 rs2 : Reg) (off : BitVec 13)
  /-- R153. -/
  | bne (rs1 rs2 : Reg) (off : BitVec 13)
  /-- R154. -/
  | blt (rs1 rs2 : Reg) (off : BitVec 13)
  /-- R155. -/
  | bge (rs1 rs2 : Reg) (off : BitVec 13)
  /-- R156. -/
  | bltu (rs1 rs2 : Reg) (off : BitVec 13)
  /-- R157. -/
  | bgeu (rs1 rs2 : Reg) (off : BitVec 13)
  /-- R171. -/
  | lb (rd rs1 : Reg) (imm : BitVec 12)
  /-- R172. -/
  | lh (rd rs1 : Reg) (imm : BitVec 12)
  /-- R173. -/
  | lw (rd rs1 : Reg) (imm : BitVec 12)
  /-- R174. -/
  | ld (rd rs1 : Reg) (imm : BitVec 12)
  /-- R175. -/
  | lbu (rd rs1 : Reg) (imm : BitVec 12)
  /-- R176. -/
  | lhu (rd rs1 : Reg) (imm : BitVec 12)
  /-- R177. -/
  | lwu (rd rs1 : Reg) (imm : BitVec 12)
  /-- R178; `rs1` is the base, `rs2` the data. -/
  | sb (rs1 rs2 : Reg) (imm : BitVec 12)
  /-- R179; `rs1` is the base, `rs2` the data. -/
  | sh (rs1 rs2 : Reg) (imm : BitVec 12)
  /-- R180; `rs1` is the base, `rs2` the data. -/
  | sw (rs1 rs2 : Reg) (imm : BitVec 12)
  /-- R181; `rs1` is the base, `rs2` the data. -/
  | sd (rs1 rs2 : Reg) (imm : BitVec 12)
  /-- R190. -/
  | addi (rd rs1 : Reg) (imm : BitVec 12)
  /-- R191. -/
  | slti (rd rs1 : Reg) (imm : BitVec 12)
  /-- R192. -/
  | sltiu (rd rs1 : Reg) (imm : BitVec 12)
  /-- R193. -/
  | xori (rd rs1 : Reg) (imm : BitVec 12)
  /-- R194. -/
  | ori (rd rs1 : Reg) (imm : BitVec 12)
  /-- R195. -/
  | andi (rd rs1 : Reg) (imm : BitVec 12)
  /-- R196. -/
  | slli (rd rs1 : Reg) (shamt : BitVec 6)
  /-- R197. -/
  | srli (rd rs1 : Reg) (shamt : BitVec 6)
  /-- R198. -/
  | srai (rd rs1 : Reg) (shamt : BitVec 6)
  /-- R199. -/
  | addiw (rd rs1 : Reg) (imm : BitVec 12)
  /-- R200. -/
  | slliw (rd rs1 : Reg) (shamt : BitVec 5)
  /-- R201. -/
  | srliw (rd rs1 : Reg) (shamt : BitVec 5)
  /-- R202. -/
  | sraiw (rd rs1 : Reg) (shamt : BitVec 5)
  /-- R210. -/
  | add (rd rs1 rs2 : Reg)
  /-- R211. -/
  | sub (rd rs1 rs2 : Reg)
  /-- R212. -/
  | sll (rd rs1 rs2 : Reg)
  /-- R213. -/
  | slt (rd rs1 rs2 : Reg)
  /-- R214. -/
  | sltu (rd rs1 rs2 : Reg)
  /-- R215. -/
  | xor (rd rs1 rs2 : Reg)
  /-- R216. -/
  | srl (rd rs1 rs2 : Reg)
  /-- R217. -/
  | sra (rd rs1 rs2 : Reg)
  /-- R218. -/
  | or (rd rs1 rs2 : Reg)
  /-- R219. -/
  | and (rd rs1 rs2 : Reg)
  /-- R220. -/
  | addw (rd rs1 rs2 : Reg)
  /-- R221. -/
  | subw (rd rs1 rs2 : Reg)
  /-- R222. -/
  | sllw (rd rs1 rs2 : Reg)
  /-- R223. -/
  | srlw (rd rs1 rs2 : Reg)
  /-- R224. -/
  | sraw (rd rs1 rs2 : Reg)
  /-- R230; every field is ignored (D30). -/
  | fence (fm pred succ : BitVec 4) (rs1 : Reg) (funct3 : BitVec 3) (rd : Reg)
  /-- R235. -/
  | ecall
  /-- R236. -/
  | ebreak
  /-- R237. -/
  | mret
  /-- R238. -/
  | csrrw (rd : Reg) (csr : CsrAddr) (rs1 : Reg)
  /-- R239. -/
  | csrrs (rd : Reg) (csr : CsrAddr) (rs1 : Reg)
  /-- R240. -/
  | csrrc (rd : Reg) (csr : CsrAddr) (rs1 : Reg)
  /-- R241. -/
  | csrrwi (rd : Reg) (csr : CsrAddr) (uimm : BitVec 5)
  /-- R242. -/
  | csrrsi (rd : Reg) (csr : CsrAddr) (uimm : BitVec 5)
  /-- R243. -/
  | csrrci (rd : Reg) (csr : CsrAddr) (uimm : BitVec 5)
  deriving DecidableEq, Repr

end Sys2Proof
end

