-- ==== Sys2Proof/WellFormed.lean ====
section
/-! DEFINITION. Which instructions have an encoding: the byte offsets of the B and J formats are even, since their bit 0 is forced to
0 (30_encoding R120, R122). Every other field has exactly its encoding's width, so no other check is needed. -/

namespace Sys2Proof

/-- Bit 0 of a B or J offset is 0 (R120, R122). -/
def offsetEven {n : Nat} (off : BitVec n) : Bool := !off.getLsbD 0

/-- The instruction has an encoding. -/
def Instr.wellFormed : Instr → Bool
  | .jal _ off => offsetEven off
  | .beq _ _ off => offsetEven off
  | .bne _ _ off => offsetEven off
  | .blt _ _ off => offsetEven off
  | .bge _ _ off => offsetEven off
  | .bltu _ _ off => offsetEven off
  | .bgeu _ _ off => offsetEven off
  | .lui .. | .auipc .. | .jalr .. => true
  | .lb .. | .lh .. | .lw .. | .ld .. | .lbu .. | .lhu .. | .lwu .. => true
  | .sb .. | .sh .. | .sw .. | .sd .. => true
  | .addi .. | .slti .. | .sltiu .. | .xori .. | .ori .. | .andi .. => true
  | .slli .. | .srli .. | .srai .. => true
  | .addiw .. | .slliw .. | .srliw .. | .sraiw .. => true
  | .add .. | .sub .. | .sll .. | .slt .. | .sltu .. | .xor .. | .srl .. | .sra .. | .or .. | .and .. => true
  | .addw .. | .subw .. | .sllw .. | .srlw .. | .sraw .. => true
  | .fence .. | .ecall | .ebreak | .mret => true
  | .csrrw .. | .csrrs .. | .csrrc .. | .csrrwi .. | .csrrsi .. | .csrrci .. => true

end Sys2Proof
end

