-- ==== Sys2Proof/Decode.lean ====
section
/-! DEFINITION. The decoder of 30_encoding R127, total on every word and every list of bytes, rejecting by name, and the encoder
written from the same format layouts (R111 to R116). -/

namespace Sys2Proof

/-- Why a word or a list of bytes is no instruction. Every rejection of a word is the `Illegal` of R127. -/
inductive DecodeError where
  /-- Fewer than the four bytes of an instruction (R110); `fetch` never gives so few. -/
  | truncated
  /-- `inst[6:0]` is none of the thirteen major opcodes (R125). -/
  | unknownOpcode
  /-- The opcode has no instruction with this `funct3` (R126). -/
  | unmatchedFunct3
  /-- No instruction with this `funct3` has this `funct7`, or `funct6` in OP-IMM (R126). -/
  | unmatchedFunct7
  /-- SYSTEM with `funct3 = 000` and not one of the three exact words (R126, R245). -/
  | unmatchedSystem
  deriving DecidableEq, Repr

/-! ### Fields (R111 to R116, R123) -/

/-- `inst[6:0]`. -/
def opcodeOf (w : InstrWord) : BitVec 7 := w.extractLsb' 0 7
/-- `rd = inst[11:7]`. -/
def rdOf (w : InstrWord) : Reg := w.extractLsb' 7 5
/-- `funct3 = inst[14:12]`. -/
def funct3Of (w : InstrWord) : BitVec 3 := w.extractLsb' 12 3
/-- `rs1 = inst[19:15]`; also `uimm` of the CSR immediate forms. -/
def rs1Of (w : InstrWord) : Reg := w.extractLsb' 15 5
/-- `rs2 = inst[24:20]`; also `shamt5`. -/
def rs2Of (w : InstrWord) : Reg := w.extractLsb' 20 5
/-- `funct7 = inst[31:25]`. -/
def funct7Of (w : InstrWord) : BitVec 7 := w.extractLsb' 25 7
/-- `funct6 = inst[31:26]`. -/
def funct6Of (w : InstrWord) : BitVec 6 := w.extractLsb' 26 6
/-- `shamt6 = inst[25:20]`. -/
def shamt6Of (w : InstrWord) : BitVec 6 := w.extractLsb' 20 6
/-- `inst[31:20]`: `imm[11:0]` of the I format, the CSR address, `funct12`. -/
def immIOf (w : InstrWord) : BitVec 12 := w.extractLsb' 20 12
/-- The S immediate, `inst[31:25]` then `inst[11:7]` (R119). -/
def immSOf (w : InstrWord) : BitVec 12 := w.extractLsb' 25 7 ++ w.extractLsb' 7 5
/-- The B offset, `inst[31]`, `inst[7]`, `inst[30:25]`, `inst[11:8]`, 0 (R120). -/
def immBOf (w : InstrWord) : BitVec 13 :=
  w.extractLsb' 31 1 ++ w.extractLsb' 7 1 ++ w.extractLsb' 25 6 ++ w.extractLsb' 8 4 ++ 0#1
/-- The 20-bit field of the U format, `inst[31:12]` (R115). -/
def immUOf (w : InstrWord) : BitVec 20 := w.extractLsb' 12 20
/-- The J offset, `inst[31]`, `inst[19:12]`, `inst[20]`, `inst[30:21]`, 0 (R122). -/
def immJOf (w : InstrWord) : BitVec 21 :=
  w.extractLsb' 31 1 ++ w.extractLsb' 12 8 ++ w.extractLsb' 20 1 ++ w.extractLsb' 21 10 ++ 0#1

/-! ### The dispatch tables (R126) -/

/-- BRANCH. -/
def decodeBranch (w : InstrWord) : Except DecodeError Instr :=
  match funct3Of w with
  | 0b000#3 => .ok (.beq (rs1Of w) (rs2Of w) (immBOf w))
  | 0b001#3 => .ok (.bne (rs1Of w) (rs2Of w) (immBOf w))
  | 0b100#3 => .ok (.blt (rs1Of w) (rs2Of w) (immBOf w))
  | 0b101#3 => .ok (.bge (rs1Of w) (rs2Of w) (immBOf w))
  | 0b110#3 => .ok (.bltu (rs1Of w) (rs2Of w) (immBOf w))
  | 0b111#3 => .ok (.bgeu (rs1Of w) (rs2Of w) (immBOf w))
  | _ => .error .unmatchedFunct3

/-- LOAD. -/
def decodeLoad (w : InstrWord) : Except DecodeError Instr :=
  match funct3Of w with
  | 0b000#3 => .ok (.lb (rdOf w) (rs1Of w) (immIOf w))
  | 0b001#3 => .ok (.lh (rdOf w) (rs1Of w) (immIOf w))
  | 0b010#3 => .ok (.lw (rdOf w) (rs1Of w) (immIOf w))
  | 0b011#3 => .ok (.ld (rdOf w) (rs1Of w) (immIOf w))
  | 0b100#3 => .ok (.lbu (rdOf w) (rs1Of w) (immIOf w))
  | 0b101#3 => .ok (.lhu (rdOf w) (rs1Of w) (immIOf w))
  | 0b110#3 => .ok (.lwu (rdOf w) (rs1Of w) (immIOf w))
  | _ => .error .unmatchedFunct3

/-- STORE. -/
def decodeStore (w : InstrWord) : Except DecodeError Instr :=
  match funct3Of w with
  | 0b000#3 => .ok (.sb (rs1Of w) (rs2Of w) (immSOf w))
  | 0b001#3 => .ok (.sh (rs1Of w) (rs2Of w) (immSOf w))
  | 0b010#3 => .ok (.sw (rs1Of w) (rs2Of w) (immSOf w))
  | 0b011#3 => .ok (.sd (rs1Of w) (rs2Of w) (immSOf w))
  | _ => .error .unmatchedFunct3

/-- OP-IMM; the shifts are told apart by the 6-bit `funct6` (90_conflicts C1). The last arm is `funct3 = 101`, the one value left. -/
def decodeOpImm (w : InstrWord) : Except DecodeError Instr :=
  match funct3Of w with
  | 0b000#3 => .ok (.addi (rdOf w) (rs1Of w) (immIOf w))
  | 0b010#3 => .ok (.slti (rdOf w) (rs1Of w) (immIOf w))
  | 0b011#3 => .ok (.sltiu (rdOf w) (rs1Of w) (immIOf w))
  | 0b100#3 => .ok (.xori (rdOf w) (rs1Of w) (immIOf w))
  | 0b110#3 => .ok (.ori (rdOf w) (rs1Of w) (immIOf w))
  | 0b111#3 => .ok (.andi (rdOf w) (rs1Of w) (immIOf w))
  | 0b001#3 =>
    match funct6Of w with
    | 0b000000#6 => .ok (.slli (rdOf w) (rs1Of w) (shamt6Of w))
    | _ => .error .unmatchedFunct7
  | _ =>
    match funct6Of w with
    | 0b000000#6 => .ok (.srli (rdOf w) (rs1Of w) (shamt6Of w))
    | 0b010000#6 => .ok (.srai (rdOf w) (rs1Of w) (shamt6Of w))
    | _ => .error .unmatchedFunct7

/-- OP-IMM-32; the shifts examine all of `funct7`, so `inst[25] = 1` is illegal (R200, D26). -/
def decodeOpImm32 (w : InstrWord) : Except DecodeError Instr :=
  match funct3Of w with
  | 0b000#3 => .ok (.addiw (rdOf w) (rs1Of w) (immIOf w))
  | 0b001#3 =>
    match funct7Of w with
    | 0b0000000#7 => .ok (.slliw (rdOf w) (rs1Of w) (rs2Of w))
    | _ => .error .unmatchedFunct7
  | 0b101#3 =>
    match funct7Of w with
    | 0b0000000#7 => .ok (.srliw (rdOf w) (rs1Of w) (rs2Of w))
    | 0b0100000#7 => .ok (.sraiw (rdOf w) (rs1Of w) (rs2Of w))
    | _ => .error .unmatchedFunct7
  | _ => .error .unmatchedFunct3

/-- OP, column `funct7 = 0000000`. The last arm is `funct3 = 111`, the one value left. -/
def decodeOpBase (w : InstrWord) : Instr :=
  match funct3Of w with
  | 0b000#3 => .add (rdOf w) (rs1Of w) (rs2Of w)
  | 0b001#3 => .sll (rdOf w) (rs1Of w) (rs2Of w)
  | 0b010#3 => .slt (rdOf w) (rs1Of w) (rs2Of w)
  | 0b011#3 => .sltu (rdOf w) (rs1Of w) (rs2Of w)
  | 0b100#3 => .xor (rdOf w) (rs1Of w) (rs2Of w)
  | 0b101#3 => .srl (rdOf w) (rs1Of w) (rs2Of w)
  | 0b110#3 => .or (rdOf w) (rs1Of w) (rs2Of w)
  | _ => .and (rdOf w) (rs1Of w) (rs2Of w)

/-- OP. -/
def decodeOp (w : InstrWord) : Except DecodeError Instr :=
  match funct7Of w with
  | 0b0000000#7 => .ok (decodeOpBase w)
  | 0b0100000#7 =>
    match funct3Of w with
    | 0b000#3 => .ok (.sub (rdOf w) (rs1Of w) (rs2Of w))
    | 0b101#3 => .ok (.sra (rdOf w) (rs1Of w) (rs2Of w))
    | _ => .error .unmatchedFunct7
  | _ => .error .unmatchedFunct7

/-- OP-32. -/
def decodeOp32 (w : InstrWord) : Except DecodeError Instr :=
  match funct7Of w with
  | 0b0000000#7 =>
    match funct3Of w with
    | 0b000#3 => .ok (.addw (rdOf w) (rs1Of w) (rs2Of w))
    | 0b001#3 => .ok (.sllw (rdOf w) (rs1Of w) (rs2Of w))
    | 0b101#3 => .ok (.srlw (rdOf w) (rs1Of w) (rs2Of w))
    | _ => .error .unmatchedFunct3
  | 0b0100000#7 =>
    match funct3Of w with
    | 0b000#3 => .ok (.subw (rdOf w) (rs1Of w) (rs2Of w))
    | 0b101#3 => .ok (.sraw (rdOf w) (rs1Of w) (rs2Of w))
    | _ => .error .unmatchedFunct7
  | _ => .error .unmatchedFunct7

/-- SYSTEM with `funct3 = 000`: only three exact words are instructions (R235 to R237, R245, D27). -/
def decodeSystemZero (w : InstrWord) : Except DecodeError Instr :=
  if w = 0x00000073#32 then .ok .ecall
  else if w = 0x00100073#32 then .ok .ebreak
  else if w = 0x30200073#32 then .ok .mret
  else .error .unmatchedSystem

/-- SYSTEM. -/
def decodeSystem (w : InstrWord) : Except DecodeError Instr :=
  match funct3Of w with
  | 0b000#3 => decodeSystemZero w
  | 0b001#3 => .ok (.csrrw (rdOf w) (immIOf w) (rs1Of w))
  | 0b010#3 => .ok (.csrrs (rdOf w) (immIOf w) (rs1Of w))
  | 0b011#3 => .ok (.csrrc (rdOf w) (immIOf w) (rs1Of w))
  | 0b101#3 => .ok (.csrrwi (rdOf w) (immIOf w) (rs1Of w))
  | 0b110#3 => .ok (.csrrsi (rdOf w) (immIOf w) (rs1Of w))
  | 0b111#3 => .ok (.csrrci (rdOf w) (immIOf w) (rs1Of w))
  | _ => .error .unmatchedFunct3

/-- MISC-MEM: every word is FENCE, its fields kept as they stand (R230, D30). -/
def decodeFence (w : InstrWord) : Instr :=
  .fence (w.extractLsb' 28 4) (w.extractLsb' 24 4) (w.extractLsb' 20 4) (rs1Of w) (funct3Of w) (rdOf w)

/-- `Decode(inst)` of R127; an error is `Illegal`. It reads no state. -/
def decode (w : InstrWord) : Except DecodeError Instr :=
  match opcodeOf w with
  | 0b0110111#7 => .ok (.lui (rdOf w) (immUOf w))
  | 0b0010111#7 => .ok (.auipc (rdOf w) (immUOf w))
  | 0b1101111#7 => .ok (.jal (rdOf w) (immJOf w))
  | 0b1100111#7 => .ok (.jalr (rdOf w) (rs1Of w) (immIOf w) (funct3Of w))
  | 0b0001111#7 => .ok (decodeFence w)
  | 0b1100011#7 => decodeBranch w
  | 0b0000011#7 => decodeLoad w
  | 0b0100011#7 => decodeStore w
  | 0b0010011#7 => decodeOpImm w
  | 0b0011011#7 => decodeOpImm32 w
  | 0b0110011#7 => decodeOp w
  | 0b0111011#7 => decodeOp32 w
  | 0b1110011#7 => decodeSystem w
  | _ => .error .unknownOpcode

/-- The four bytes of a word, least significant first (R69, R110). -/
def wordBytes (w : InstrWord) : List Byte :=
  [w.extractLsb' 0 8, w.extractLsb' 8 8, w.extractLsb' 16 8, w.extractLsb' 24 8]

/-- The instruction at the head of a list of bytes, and the bytes after it; total on any bytes. -/
def decodeBytes : List Byte → Except DecodeError (Instr × List Byte)
  | b0 :: b1 :: b2 :: b3 :: rest =>
    match decode (b3 ++ b2 ++ b1 ++ b0) with
    | .ok i => .ok (i, rest)
    | .error e => .error e
  | _ => .error .truncated

/-- What the decoder reads from the low `nbits` bits of `w`, laid out little-endian as the hardware stores them, every
higher bit of the instruction being 0. -/
def decodeTableWord (nbits w : Nat) : Option Instr :=
  match decodeBytes (wordBytes (BitVec.ofNat 32 (w % 2 ^ nbits))) with
  | .ok (i, _) => some i
  | .error _ => none

/-! ### The encoder (R111 to R116, R125, R126) -/

/-- R format (R111). -/
def encR (funct7 : BitVec 7) (rs2 rs1 : Reg) (funct3 : BitVec 3) (rd : Reg) (opcode : BitVec 7) : InstrWord :=
  funct7 ++ rs2 ++ rs1 ++ funct3 ++ rd ++ opcode

/-- I format (R112). -/
def encI (imm : BitVec 12) (rs1 : Reg) (funct3 : BitVec 3) (rd : Reg) (opcode : BitVec 7) : InstrWord :=
  imm ++ rs1 ++ funct3 ++ rd ++ opcode

/-- S format (R113). -/
def encS (imm : BitVec 12) (rs2 rs1 : Reg) (funct3 : BitVec 3) (opcode : BitVec 7) : InstrWord :=
  imm.extractLsb' 5 7 ++ rs2 ++ rs1 ++ funct3 ++ imm.extractLsb' 0 5 ++ opcode

/-- B format (R114); bit 0 of the offset has no place in the word. -/
def encB (off : BitVec 13) (rs2 rs1 : Reg) (funct3 : BitVec 3) (opcode : BitVec 7) : InstrWord :=
  off.extractLsb' 12 1 ++ off.extractLsb' 5 6 ++ rs2 ++ rs1 ++ funct3 ++ off.extractLsb' 1 4 ++ off.extractLsb' 11 1 ++ opcode

/-- U format (R115). -/
def encU (imm20 : BitVec 20) (rd : Reg) (opcode : BitVec 7) : InstrWord :=
  imm20 ++ rd ++ opcode

/-- J format (R116); bit 0 of the offset has no place in the word. -/
def encJ (off : BitVec 21) (rd : Reg) (opcode : BitVec 7) : InstrWord :=
  off.extractLsb' 20 1 ++ off.extractLsb' 1 10 ++ off.extractLsb' 11 1 ++ off.extractLsb' 12 8 ++ rd ++ opcode

/-- The I format with a split immediate: `funct6` and a 6-bit shift amount (R123). -/
def encShift6 (funct6 : BitVec 6) (shamt : BitVec 6) (rs1 : Reg) (funct3 : BitVec 3) (rd : Reg) (opcode : BitVec 7) : InstrWord :=
  funct6 ++ shamt ++ rs1 ++ funct3 ++ rd ++ opcode

/-- The word of a well-formed instruction (R125, R126). -/
def encode : Instr → InstrWord
  | .lui rd imm => encU imm rd 0b0110111#7
  | .auipc rd imm => encU imm rd 0b0010111#7
  | .jal rd off => encJ off rd 0b1101111#7
  | .jalr rd rs1 imm f3 => encI imm rs1 f3 rd 0b1100111#7
  | .beq rs1 rs2 off => encB off rs2 rs1 0b000#3 0b1100011#7
  | .bne rs1 rs2 off => encB off rs2 rs1 0b001#3 0b1100011#7
  | .blt rs1 rs2 off => encB off rs2 rs1 0b100#3 0b1100011#7
  | .bge rs1 rs2 off => encB off rs2 rs1 0b101#3 0b1100011#7
  | .bltu rs1 rs2 off => encB off rs2 rs1 0b110#3 0b1100011#7
  | .bgeu rs1 rs2 off => encB off rs2 rs1 0b111#3 0b1100011#7
  | .lb rd rs1 imm => encI imm rs1 0b000#3 rd 0b0000011#7
  | .lh rd rs1 imm => encI imm rs1 0b001#3 rd 0b0000011#7
  | .lw rd rs1 imm => encI imm rs1 0b010#3 rd 0b0000011#7
  | .ld rd rs1 imm => encI imm rs1 0b011#3 rd 0b0000011#7
  | .lbu rd rs1 imm => encI imm rs1 0b100#3 rd 0b0000011#7
  | .lhu rd rs1 imm => encI imm rs1 0b101#3 rd 0b0000011#7
  | .lwu rd rs1 imm => encI imm rs1 0b110#3 rd 0b0000011#7
  | .sb rs1 rs2 imm => encS imm rs2 rs1 0b000#3 0b0100011#7
  | .sh rs1 rs2 imm => encS imm rs2 rs1 0b001#3 0b0100011#7
  | .sw rs1 rs2 imm => encS imm rs2 rs1 0b010#3 0b0100011#7
  | .sd rs1 rs2 imm => encS imm rs2 rs1 0b011#3 0b0100011#7
  | .addi rd rs1 imm => encI imm rs1 0b000#3 rd 0b0010011#7
  | .slti rd rs1 imm => encI imm rs1 0b010#3 rd 0b0010011#7
  | .sltiu rd rs1 imm => encI imm rs1 0b011#3 rd 0b0010011#7
  | .xori rd rs1 imm => encI imm rs1 0b100#3 rd 0b0010011#7
  | .ori rd rs1 imm => encI imm rs1 0b110#3 rd 0b0010011#7
  | .andi rd rs1 imm => encI imm rs1 0b111#3 rd 0b0010011#7
  | .slli rd rs1 sh => encShift6 0b000000#6 sh rs1 0b001#3 rd 0b0010011#7
  | .srli rd rs1 sh => encShift6 0b000000#6 sh rs1 0b101#3 rd 0b0010011#7
  | .srai rd rs1 sh => encShift6 0b010000#6 sh rs1 0b101#3 rd 0b0010011#7
  | .addiw rd rs1 imm => encI imm rs1 0b000#3 rd 0b0011011#7
  | .slliw rd rs1 sh => encR 0b0000000#7 sh rs1 0b001#3 rd 0b0011011#7
  | .srliw rd rs1 sh => encR 0b0000000#7 sh rs1 0b101#3 rd 0b0011011#7
  | .sraiw rd rs1 sh => encR 0b0100000#7 sh rs1 0b101#3 rd 0b0011011#7
  | .add rd rs1 rs2 => encR 0b0000000#7 rs2 rs1 0b000#3 rd 0b0110011#7
  | .sub rd rs1 rs2 => encR 0b0100000#7 rs2 rs1 0b000#3 rd 0b0110011#7
  | .sll rd rs1 rs2 => encR 0b0000000#7 rs2 rs1 0b001#3 rd 0b0110011#7
  | .slt rd rs1 rs2 => encR 0b0000000#7 rs2 rs1 0b010#3 rd 0b0110011#7
  | .sltu rd rs1 rs2 => encR 0b0000000#7 rs2 rs1 0b011#3 rd 0b0110011#7
  | .xor rd rs1 rs2 => encR 0b0000000#7 rs2 rs1 0b100#3 rd 0b0110011#7
  | .srl rd rs1 rs2 => encR 0b0000000#7 rs2 rs1 0b101#3 rd 0b0110011#7
  | .sra rd rs1 rs2 => encR 0b0100000#7 rs2 rs1 0b101#3 rd 0b0110011#7
  | .or rd rs1 rs2 => encR 0b0000000#7 rs2 rs1 0b110#3 rd 0b0110011#7
  | .and rd rs1 rs2 => encR 0b0000000#7 rs2 rs1 0b111#3 rd 0b0110011#7
  | .addw rd rs1 rs2 => encR 0b0000000#7 rs2 rs1 0b000#3 rd 0b0111011#7
  | .subw rd rs1 rs2 => encR 0b0100000#7 rs2 rs1 0b000#3 rd 0b0111011#7
  | .sllw rd rs1 rs2 => encR 0b0000000#7 rs2 rs1 0b001#3 rd 0b0111011#7
  | .srlw rd rs1 rs2 => encR 0b0000000#7 rs2 rs1 0b101#3 rd 0b0111011#7
  | .sraw rd rs1 rs2 => encR 0b0100000#7 rs2 rs1 0b101#3 rd 0b0111011#7
  | .fence fm pred succ rs1 f3 rd => encI (fm ++ pred ++ succ) rs1 f3 rd 0b0001111#7
  | .ecall => 0x00000073#32
  | .ebreak => 0x00100073#32
  | .mret => 0x30200073#32
  | .csrrw rd csr rs1 => encI csr rs1 0b001#3 rd 0b1110011#7
  | .csrrs rd csr rs1 => encI csr rs1 0b010#3 rd 0b1110011#7
  | .csrrc rd csr rs1 => encI csr rs1 0b011#3 rd 0b1110011#7
  | .csrrwi rd csr uimm => encI csr uimm 0b101#3 rd 0b1110011#7
  | .csrrsi rd csr uimm => encI csr uimm 0b110#3 rd 0b1110011#7
  | .csrrci rd csr uimm => encI csr uimm 0b111#3 rd 0b1110011#7

/-! ### The opcode table (R127): one row per instruction -/

/-- The instruction's row in spec/opcode_table.json. -/
def mnemonicOf : Instr → String
  | .lui .. => "LUI"
  | .auipc .. => "AUIPC"
  | .jal .. => "JAL"
  | .jalr .. => "JALR"
  | .beq .. => "BEQ"
  | .bne .. => "BNE"
  | .blt .. => "BLT"
  | .bge .. => "BGE"
  | .bltu .. => "BLTU"
  | .bgeu .. => "BGEU"
  | .lb .. => "LB"
  | .lh .. => "LH"
  | .lw .. => "LW"
  | .ld .. => "LD"
  | .lbu .. => "LBU"
  | .lhu .. => "LHU"
  | .lwu .. => "LWU"
  | .sb .. => "SB"
  | .sh .. => "SH"
  | .sw .. => "SW"
  | .sd .. => "SD"
  | .addi .. => "ADDI"
  | .slti .. => "SLTI"
  | .sltiu .. => "SLTIU"
  | .xori .. => "XORI"
  | .ori .. => "ORI"
  | .andi .. => "ANDI"
  | .slli .. => "SLLI"
  | .srli .. => "SRLI"
  | .srai .. => "SRAI"
  | .addiw .. => "ADDIW"
  | .slliw .. => "SLLIW"
  | .srliw .. => "SRLIW"
  | .sraiw .. => "SRAIW"
  | .add .. => "ADD"
  | .sub .. => "SUB"
  | .sll .. => "SLL"
  | .slt .. => "SLT"
  | .sltu .. => "SLTU"
  | .xor .. => "XOR"
  | .srl .. => "SRL"
  | .sra .. => "SRA"
  | .or .. => "OR"
  | .and .. => "AND"
  | .addw .. => "ADDW"
  | .subw .. => "SUBW"
  | .sllw .. => "SLLW"
  | .srlw .. => "SRLW"
  | .sraw .. => "SRAW"
  | .fence .. => "FENCE"
  | .ecall => "ECALL"
  | .ebreak => "EBREAK"
  | .mret => "MRET"
  | .csrrw .. => "CSRRW"
  | .csrrs .. => "CSRRS"
  | .csrrc .. => "CSRRC"
  | .csrrwi .. => "CSRRWI"
  | .csrrsi .. => "CSRRSI"
  | .csrrci .. => "CSRRCI"

/-- A row of spec/opcode_table.json: `word` selects it when `word &&& mask = value` (R127). -/
structure OpcodeRow where
  mnemonic : String
  mask : InstrWord
  value : InstrWord
  deriving DecidableEq, Repr

/-- The word selects the row. -/
def OpcodeRow.selects (r : OpcodeRow) (w : InstrWord) : Bool := w &&& r.mask = r.value

/-- Rows 1 to 10. -/
def opcodeRows0 : List OpcodeRow :=
  [
    ⟨"LUI", 0x0000007F#32, 0x00000037#32⟩,
    ⟨"AUIPC", 0x0000007F#32, 0x00000017#32⟩,
    ⟨"JAL", 0x0000007F#32, 0x0000006F#32⟩,
    ⟨"JALR", 0x0000007F#32, 0x00000067#32⟩,
    ⟨"BEQ", 0x0000707F#32, 0x00000063#32⟩,
    ⟨"BNE", 0x0000707F#32, 0x00001063#32⟩,
    ⟨"BLT", 0x0000707F#32, 0x00004063#32⟩,
    ⟨"BGE", 0x0000707F#32, 0x00005063#32⟩,
    ⟨"BLTU", 0x0000707F#32, 0x00006063#32⟩,
    ⟨"BGEU", 0x0000707F#32, 0x00007063#32⟩ ]

/-- Rows 11 to 20. -/
def opcodeRows1 : List OpcodeRow :=
  [
    ⟨"LB", 0x0000707F#32, 0x00000003#32⟩,
    ⟨"LH", 0x0000707F#32, 0x00001003#32⟩,
    ⟨"LW", 0x0000707F#32, 0x00002003#32⟩,
    ⟨"LD", 0x0000707F#32, 0x00003003#32⟩,
    ⟨"LBU", 0x0000707F#32, 0x00004003#32⟩,
    ⟨"LHU", 0x0000707F#32, 0x00005003#32⟩,
    ⟨"LWU", 0x0000707F#32, 0x00006003#32⟩,
    ⟨"SB", 0x0000707F#32, 0x00000023#32⟩,
    ⟨"SH", 0x0000707F#32, 0x00001023#32⟩,
    ⟨"SW", 0x0000707F#32, 0x00002023#32⟩ ]

/-- Rows 21 to 30. -/
def opcodeRows2 : List OpcodeRow :=
  [
    ⟨"SD", 0x0000707F#32, 0x00003023#32⟩,
    ⟨"ADDI", 0x0000707F#32, 0x00000013#32⟩,
    ⟨"SLTI", 0x0000707F#32, 0x00002013#32⟩,
    ⟨"SLTIU", 0x0000707F#32, 0x00003013#32⟩,
    ⟨"XORI", 0x0000707F#32, 0x00004013#32⟩,
    ⟨"ORI", 0x0000707F#32, 0x00006013#32⟩,
    ⟨"ANDI", 0x0000707F#32, 0x00007013#32⟩,
    ⟨"SLLI", 0xFC00707F#32, 0x00001013#32⟩,
    ⟨"SRLI", 0xFC00707F#32, 0x00005013#32⟩,
    ⟨"SRAI", 0xFC00707F#32, 0x40005013#32⟩ ]

/-- Rows 31 to 40. -/
def opcodeRows3 : List OpcodeRow :=
  [
    ⟨"ADDIW", 0x0000707F#32, 0x0000001B#32⟩,
    ⟨"SLLIW", 0xFE00707F#32, 0x0000101B#32⟩,
    ⟨"SRLIW", 0xFE00707F#32, 0x0000501B#32⟩,
    ⟨"SRAIW", 0xFE00707F#32, 0x4000501B#32⟩,
    ⟨"ADD", 0xFE00707F#32, 0x00000033#32⟩,
    ⟨"SUB", 0xFE00707F#32, 0x40000033#32⟩,
    ⟨"SLL", 0xFE00707F#32, 0x00001033#32⟩,
    ⟨"SLT", 0xFE00707F#32, 0x00002033#32⟩,
    ⟨"SLTU", 0xFE00707F#32, 0x00003033#32⟩,
    ⟨"XOR", 0xFE00707F#32, 0x00004033#32⟩ ]

/-- Rows 41 to 50. -/
def opcodeRows4 : List OpcodeRow :=
  [
    ⟨"SRL", 0xFE00707F#32, 0x00005033#32⟩,
    ⟨"SRA", 0xFE00707F#32, 0x40005033#32⟩,
    ⟨"OR", 0xFE00707F#32, 0x00006033#32⟩,
    ⟨"AND", 0xFE00707F#32, 0x00007033#32⟩,
    ⟨"ADDW", 0xFE00707F#32, 0x0000003B#32⟩,
    ⟨"SUBW", 0xFE00707F#32, 0x4000003B#32⟩,
    ⟨"SLLW", 0xFE00707F#32, 0x0000103B#32⟩,
    ⟨"SRLW", 0xFE00707F#32, 0x0000503B#32⟩,
    ⟨"SRAW", 0xFE00707F#32, 0x4000503B#32⟩,
    ⟨"FENCE", 0x0000007F#32, 0x0000000F#32⟩ ]

/-- Rows 51 to 59. -/
def opcodeRows5 : List OpcodeRow :=
  [
    ⟨"ECALL", 0xFFFFFFFF#32, 0x00000073#32⟩,
    ⟨"EBREAK", 0xFFFFFFFF#32, 0x00100073#32⟩,
    ⟨"MRET", 0xFFFFFFFF#32, 0x30200073#32⟩,
    ⟨"CSRRW", 0x0000707F#32, 0x00001073#32⟩,
    ⟨"CSRRS", 0x0000707F#32, 0x00002073#32⟩,
    ⟨"CSRRC", 0x0000707F#32, 0x00003073#32⟩,
    ⟨"CSRRWI", 0x0000707F#32, 0x00005073#32⟩,
    ⟨"CSRRSI", 0x0000707F#32, 0x00006073#32⟩,
    ⟨"CSRRCI", 0x0000707F#32, 0x00007073#32⟩ ]

/-- spec/opcode_table.json, its 59 rows in the table's order. -/
def opcodeRows : List OpcodeRow :=
  opcodeRows0 ++ opcodeRows1 ++ opcodeRows2 ++ opcodeRows3 ++ opcodeRows4 ++ opcodeRows5

end Sys2Proof
end

