-- ==== Sys2Proof/Machine/Bits.lean ====
section
/-! DEFINITION. The bit-field primitives of 00_scope R13: sign and zero extension of the low bits of a word, and writing one field of a
word. -/

namespace Sys2Proof.Machine

/-- `sext_N(v)`: the low `N` bits of `v`, sign-extended to 64 (R13). -/
def sext (n : Nat) (v : Word) : Word := (v.setWidth n).signExtend 64

/-- `zext_N(v)`: the low `N` bits of `v`, zero-extended to 64 (R13). -/
def zext (n : Nat) (v : Word) : Word := (v.setWidth n).setWidth 64

/-- `v` with the field `v[lo+n-1 : lo]` replaced by `f`, every other bit kept. -/
def setField {n : Nat} (v : Word) (lo : Nat) (f : BitVec n) : Word :=
  (v &&& ~~~((BitVec.allOnes n).setWidth 64 <<< lo)) ||| (f.setWidth 64 <<< lo)

end Sys2Proof.Machine
end

