-- ==== Sys2Proof/Config.lean ====
section
/-! DEFINITION. The implementation parameters of 00_scope R9 and their defaults. The spec leaves them to the platform and asks a
model to take each as an argument: they are plain data, held in State and changed by no step, so that every statement about
every state is a statement about every choice of them. The spec leaves no other value open (93_implementation_defined), so
there is no free value here. -/

namespace Sys2Proof

/-- A region of the memory fabric: `length` bytes from physical address `base` (R60, R61), as unbounded integers (R66). -/
structure Region where
  base : Nat
  length : Nat
  deriving DecidableEq, Repr

/-- The translation modes the walker can be built with (R81). The reserved `satp.MODE` values are "never" in `SATP_MODES`,
so they have no constructor. -/
inductive TransMode where
  | bare
  | sv39
  | sv48
  | sv57
  deriving DecidableEq, Repr

/-- The six parameters of R9. -/
structure Params where
  /-- `REGIONS`, the memory map (R61, D8). -/
  regions : List Region
  /-- `RESET_PC`, the value of `pc` after reset (R301, D4). -/
  resetPc : Word
  /-- `HART_ID`, the reset value of `mhartid` (R41, D6). -/
  hartId : Word
  /-- `MISA_RESET`, the reset value of `misa` (R34, D6). -/
  misaReset : Word
  /-- `SATP_MODES`, the set of translation modes the walker implements (R81, D15); only membership counts. -/
  satpModes : List TransMode
  /-- `TRAP_GATE_OBSERVED`: is trap entry gated as the source code was observed to gate it (R271, D1)? -/
  trapGateObserved : Bool
  deriving DecidableEq, Repr

/-- The defaults of R9. `REGIONS` has no default in the spec.
DESIGN CHOICE (log 2, unsafe for statements about `State.reset`): one region of 1 MiB at `0x8000_0000`, the map that
95_test_vectors takes unless a vector says otherwise. -/
def Params.default : Params where
  regions := [{ base := 0x80000000, length := 0x100000 }]
  resetPc := 0x0000000080000000#64
  hartId := 0#64
  misaReset := 0x8000000000140100#64
  satpModes := [.bare, .sv39]
  trapGateObserved := false

end Sys2Proof
end

