-- ==== Sys2Proof/Machine/State.lean ====
section
/-! DEFINITION. The state of the hart as plain data (10_state), the exceptions it can take (60_exceptions R261), the answers of an
access, how a step can stop, and the state after reset (R48, R300). -/

namespace Sys2Proof.Machine

/-- The privilege modes (R27), lowest first. `hypervisor` is the reserved mode 2. -/
inductive PrivMode where
  | user
  | supervisor
  | hypervisor
  | machine
  deriving DecidableEq, Repr

/-- The fault kinds of R261 with what each carries. `NotImplemented`, the sixteenth, has no cause code and is not delivered as a
trap (R265): it is `Refusal.translationNotImplemented`. -/
inductive Exception where
  /-- Never raised: no alignment check on `pc` (R72). -/
  | instructionAddressMisaligned (addr : Word)
  /-- Raised by a fetch that fits no region (R70). -/
  | instructionAccessFault (addr : Word)
  /-- Raised by decode (R128). -/
  | illegalInstruction
  /-- Raised by EBREAK (R236). -/
  | breakpoint
  /-- Never raised: no alignment check on loads (R71). -/
  | loadAddressMisaligned (addr : Word)
  /-- Raised by a load whose physical bytes fit no region (R92). -/
  | loadAccessFault (addr : Word)
  /-- Never raised: no alignment check on stores (R71). -/
  | storeAddressMisaligned (addr : Word)
  /-- Raised by a store whose physical bytes fit no region (R93). -/
  | storeAccessFault (addr : Word)
  /-- Raised by ECALL in User mode (R235). -/
  | environmentCallFromU
  /-- Raised by ECALL in Supervisor mode (R235). -/
  | environmentCallFromS
  /-- Raised by ECALL in the reserved mode 2 (R235, D23). -/
  | environmentCallFromH
  /-- Raised by ECALL in Machine mode (R235). -/
  | environmentCallFromM
  /-- Never raised: fetch is not translated (R70). -/
  | instructionPageFault (addr : Word)
  /-- Raised by a load whose walk fails or whose leaf has R = 0 (R92). -/
  | loadPageFault (addr : Word)
  /-- Raised by a store whose walk fails or whose leaf has W = 0 (R93). -/
  | storePageFault (addr : Word)
  deriving DecidableEq, Repr

/-- The access widths (R73): 1, 2, 4 or 8 bytes. There is no other access. -/
inductive Width where
  | byte
  | half
  | word
  | double
  deriving DecidableEq, Repr

/-- The answer of `Translate` (R80): a physical address with the permissions readable, writable, executable, or a failed walk,
or a mode that is not implemented. -/
inductive Translation where
  | ok (pa : Word) (r w x : Bool)
  | fail
  | unsupported
  deriving DecidableEq, Repr

/-- How `MemRead` and `MemWrite` end (R92, R93): with a result, by raising an exception, or by `NotImplemented`. -/
inductive Access (α : Type) where
  | done (a : α)
  | raised (e : Exception)
  | notImplemented
  deriving DecidableEq, Repr

/-- The whole machine. The CSR slots with a meaning (R32) have a field each; every other slot is in `csrs`. The last three fields
are the diagnostic outputs of 00_scope R11, which nothing reads back (log 4). -/
structure State where
  /-- The implementation parameters (R9), changed by no step (log 1). -/
  params : Params
  /-- `x0` to `x31` (R20). -/
  gpr : Vector Word 32
  /-- The program counter (R24). -/
  pc : Word
  /-- The current privilege mode (R27). -/
  priv : PrivMode
  /-- 0x300 (R33). -/
  mstatus : Word
  /-- 0x301 (R34). -/
  misa : Word
  /-- 0x304 (R35). -/
  mie : Word
  /-- 0x305 (R37). -/
  mtvec : Word
  /-- 0x341 (R38). -/
  mepc : Word
  /-- 0x342 (R39). -/
  mcause : Word
  /-- 0x343 (R40). -/
  mtval : Word
  /-- 0x344 (R36). -/
  mip : Word
  /-- 0xF14 (R41). -/
  mhartid : Word
  /-- 0x180 (R42). -/
  satp : Word
  /-- Every other CSR slot (R43): (address, value) pairs, addresses rising, no value 0; an unlisted slot holds 0 (log 11). -/
  csrs : List (Nat × Word)
  /-- The bytes of the regions by physical address (R60): addresses rising, no byte 0; an unlisted byte reads 0 (log 3). -/
  mem : List Host.Cell
  /-- `fault_out`: the exception of the step just made, with its trap value, or none (R260). -/
  faultOut : Option Exception
  /-- `debug_trap`: that exception was a breakpoint (R260, R284). -/
  debugTrap : Bool
  /-- `instr_out`: the word last fetched (R260). -/
  instrOut : InstrWord
  deriving DecidableEq, Repr

/-- How a step can end in a machine fault: in no way. Every fault of this hart is an exception that it takes (R260, R310); the
two stops the spec asks of a model are refusals (log 8). -/
inductive Fault where
  deriving DecidableEq, Repr

/-- Why a step has no meaning. -/
inductive Refusal where
  /-- An instruction without a meaning in `exec` yet; raised by `exec` alone; safe. No arm of this model uses it. -/
  | notModelled (mnemonic : String)
  /-- `NotImplemented`: a load or store while `satp.MODE` is not in `SATP_MODES`; raised by the load and store instructions; the
  spec gives the run no meaning (R88, R265); safe (log 5). -/
  | translationNotImplemented
  /-- `REGIONS` has overlapping regions, an empty one, or one that passes 2^64; raised by `step` before the fetch; the spec asks a
  model to refuse it (R61, D36); safe (log 6). -/
  | illegalRegions
  deriving DecidableEq, Repr

/-- The state of R48 over given parameters and memory contents; reset does not touch memory (R300). The outputs are cleared
(DESIGN CHOICE, log 4, unsafe). -/
def State.resetWith (p : Params) (m : List Host.Cell) : State where
  params := p
  gpr := Vector.replicate 32 0#64
  pc := p.resetPc
  priv := .machine
  mstatus := 0#64
  misa := p.misaReset
  mie := 0#64
  mtvec := 0#64
  mepc := 0#64
  mcause := 0#64
  mtval := 0#64
  mip := 0#64
  mhartid := p.hartId
  satp := 0#64
  csrs := []
  mem := m
  faultOut := none
  debugTrap := false
  instrOut := 0#32

/-- The machine right after reset with the default parameters and nothing loaded. -/
def State.reset : State := State.resetWith Params.default []

end Sys2Proof.Machine
end

