-- ==== Sys2Proof/Machine/Flags.lean ====
section
/-! DEFINITION. There are no condition codes (10_state R28). What stands for flags here: the 0 or 1 of a comparison (R28, R203), and
the fields of `mstatus`, `mie` and `mip` that the hardware reads and writes (R33, R35, R36). -/

namespace Sys2Proof.Machine

/-- A comparison writes exactly 0 or 1 (R203). -/
def boolWord (b : Bool) : Word := if b then 1#64 else 0#64

/-- `a <s b` (R13). -/
def ltSigned (a b : Word) : Bool := a.slt b

/-- `a <u b` (R13). -/
def ltUnsigned (a b : Word) : Bool := a.ult b

/-- The two-bit encoding of a mode (R27). -/
def encodeMode : PrivMode → BitVec 2
  | .user => 0#2
  | .supervisor => 1#2
  | .hypervisor => 2#2
  | .machine => 3#2

/-- The mode of a two-bit encoding (R27); the last arm is 3, the one value left. -/
def decodeMode (b : BitVec 2) : PrivMode :=
  match b with
  | 0#2 => .user
  | 1#2 => .supervisor
  | 2#2 => .hypervisor
  | _ => .machine

/-- `mstatus.MIE`, bit 3 (R33). -/
def mstatusMie (v : Word) : BitVec 1 := v.extractLsb' 3 1

/-- `mstatus.MPIE`, bit 7 (R33). -/
def mstatusMpie (v : Word) : BitVec 1 := v.extractLsb' 7 1

/-- `mstatus.MPP`, bits 12:11 (R33). -/
def mstatusMpp (v : Word) : BitVec 2 := v.extractLsb' 11 2

/-- `mstatus` after trap entry from a mode: MPIE takes MIE, MIE is cleared, MPP takes the mode (R270). -/
def mstatusOnTrap (v : Word) (m : PrivMode) : Word :=
  setField (setField (setField v 7 (mstatusMie v)) 3 0#1) 11 (encodeMode m)

/-- `mstatus` after MRET: MIE takes MPIE, nothing else changes (R237, D22). -/
def mstatusOnReturn (v : Word) : Word := setField v 3 (mstatusMpie v)

/-- The gate of R271: `mstatus[3]`, `mie[3]` and `mip[3]` are all 1. -/
def trapGateOpen (s : State) : Bool := s.mstatus.getLsbD 3 && s.mie.getLsbD 3 && s.mip.getLsbD 3

end Sys2Proof.Machine
end

