-- ==== Sys2Proof/Machine/Alu.lean ====
section
/-! DEFINITION. The integer operations shared by OP-IMM and OP, and by OP-IMM-32 and OP-32 (43_op_imm R203). Overflow is ignored;
nothing here sets a flag or traps. -/

namespace Sys2Proof.Machine

/-- `a << n`, the low 64 bits (R13). -/
def shiftLeft64 (a : Word) (n : Nat) : Word := a <<< n

/-- `a >>u n`: zeros enter at bit 63 (R13). -/
def shiftRightU64 (a : Word) (n : Nat) : Word := a >>> n

/-- `a >>s n`: copies of bit 63 enter (R13). -/
def shiftRightS64 (a : Word) (n : Nat) : Word := a.sshiftRight n

/-- `a[31:0]`. -/
def low32 (a : Word) : BitVec 32 := a.setWidth 32

/-- A 32-bit result sign-extended to 64 bits (R203). -/
def sext32 (v : BitVec 32) : Word := v.signExtend 64

/-- `sext_32((a + b)[31:0])`. -/
def addW (a b : Word) : Word := sext32 (low32 (a + b))

/-- `sext_32((a - b)[31:0])`. -/
def subW (a b : Word) : Word := sext32 (low32 (a - b))

/-- `sext_32((a[31:0] << n)[31:0])`. -/
def shiftLeftW (a : Word) (n : Nat) : Word := sext32 (low32 a <<< n)

/-- `sext_32(a[31:0] >>u n)`: zeros enter at bit 31. -/
def shiftRightUW (a : Word) (n : Nat) : Word := sext32 (low32 a >>> n)

/-- `sext_32(a[31:0] >>s n)`: copies of bit 31 enter at bit 31. -/
def shiftRightSW (a : Word) (n : Nat) : Word := sext32 ((low32 a).sshiftRight n)

end Sys2Proof.Machine
end

