-- ==== Sys2Proof/Machine/Sparse.lean ====
section
/-! DEFINITION. Sparse storage: a list of (key, value) pairs in canonical form, keys strictly rising and no value 0; an unlisted key
holds 0. Memory and the CSR bank ("sparse 64-bit register space", R29) are both held so, and equal contents are equal lists. -/

namespace Sys2Proof.Machine

/-- The value at key `a`; an unlisted key holds 0. -/
def Sparse.get {w : Nat} : List (Nat × BitVec w) → Nat → BitVec w
  | [], _ => 0#w
  | (k, v) :: rest, a => if k = a then v else Sparse.get rest a

/-- Every pair with key `a` taken out. -/
def Sparse.erase {w : Nat} : List (Nat × BitVec w) → Nat → List (Nat × BitVec w)
  | [], _ => []
  | (k, v) :: rest, a => if k = a then Sparse.erase rest a else (k, v) :: Sparse.erase rest a

/-- A pair put in front of the first greater key. -/
def Sparse.insert {w : Nat} : List (Nat × BitVec w) → Nat → BitVec w → List (Nat × BitVec w)
  | [], a, v => [(a, v)]
  | (k, u) :: rest, a, v => if a < k then (a, v) :: (k, u) :: rest else (k, u) :: Sparse.insert rest a v

/-- Key `a` set to `v`; setting 0 removes the pair, which keeps the canonical form. -/
def Sparse.set {w : Nat} (m : List (Nat × BitVec w)) (a : Nat) (v : BitVec w) : List (Nat × BitVec w) :=
  if v = 0#w then Sparse.erase m a else Sparse.insert (Sparse.erase m a) a v

/-- The canonical form: keys strictly rising, no value 0. -/
abbrev Sparse.Canonical {w : Nat} (m : List (Nat × BitVec w)) : Prop :=
  (m.map Prod.fst).Pairwise (· < ·) ∧ ∀ c ∈ m, c.2 ≠ 0#w

end Sys2Proof.Machine
end

