-- ==== Sys2Proof/Machine/Fabric.lean ====
section
/-! DEFINITION. The memory fabric (20_memory sections 1 to 3): legal memory maps, the lookup rule, PhysRead and PhysWrite. Bytes are
held by physical address, which for disjoint regions is the same as one store per region (log 7). -/

namespace Sys2Proof.Machine

/-! ### Memory contents -/

/-- The canonical form of a memory: keys strictly rising 64-bit addresses, no byte equal to what an unlisted one reads as. -/
abbrev Memory.wf (m : List Host.Cell) : Prop := Sparse.Canonical m ∧ ∀ c ∈ m, c.1 < 2 ^ 64

/-- One byte of memory. DESIGN CHOICE (log 3, unsafe): a byte that nothing has written reads 0. -/
def Memory.get (m : List Host.Cell) (a : Nat) : Byte := Sparse.get m a

/-- One byte of memory written. -/
def Memory.set (m : List Host.Cell) (a : Nat) (b : Byte) : List Host.Cell := Sparse.set m a b

/-- The number of bytes of an access (R73). -/
def Width.bytes : Width → Nat
  | .byte => 1
  | .half => 2
  | .word => 4
  | .double => 8

/-- `{B[n-1], ..., B[1], B[0]}`: the `n` bytes from `a`, little-endian (R63, R69). -/
def Memory.readLE (m : List Host.Cell) (a : Nat) : Nat → Word
  | 0 => 0#64
  | n + 1 => (Memory.get m a).setWidth 64 ||| (Memory.readLE m (a + 1) n <<< 8)

/-- The low `n` bytes of `v` stored from `a`, little-endian (R64). -/
def Memory.writeLE (m : List Host.Cell) (a : Nat) : Nat → Word → List Host.Cell
  | 0, _ => m
  | n + 1, v => Memory.writeLE (Memory.set m a (v.setWidth 8)) (a + 1) n (v >>> 8)

/-! ### The memory map (R61, R62) -/

/-- Two regions have no address in common (R61). -/
def disjointRegions (r q : Region) : Bool := r.base + r.length ≤ q.base || q.base + q.length ≤ r.base

/-- A region has at least one byte and lies below 2^64 (R61). -/
def legalRegion (r : Region) : Bool := 1 ≤ r.length && r.base + r.length ≤ 2 ^ 64

/-- A legal `REGIONS`: legal regions, pairwise disjoint (R61). -/
def legalRegions : List Region → Bool
  | [] => true
  | r :: rs => legalRegion r && rs.all (fun q => disjointRegions r q) && legalRegions rs

/-- The region with the greatest base not above `pa` (R62). -/
def selectRegion : List Region → Nat → Option Region
  | [], _ => none
  | r :: rs, pa =>
    match selectRegion rs pa with
    | none => if r.base ≤ pa then some r else none
    | some b => if r.base ≤ pa ∧ b.base < r.base then some r else some b

/-- `Lookup(pa, n)`: the region that holds the whole access, or no mapping (R62). The sum is an unbounded integer (R66). -/
def lookup (rs : List Region) (pa n : Nat) : Option Region :=
  match selectRegion rs pa with
  | none => none
  | some r => if pa + n ≤ r.base + r.length then some r else none

/-- The bytes `pa` to `pa + n - 1` are backed: `Lookup` answers a hit. -/
def backed (rs : List Region) (pa n : Nat) : Bool := (lookup rs pa n).isSome

/-! ### The fabric port (R63, R64) -/

/-- The byte at a physical address. -/
def State.byte (s : State) (a : Nat) : Byte := Memory.get s.mem a

/-- `PhysRead(pa, n)`: the little-endian value, or no mapping (R63). -/
def State.physRead (s : State) (pa : Word) (w : Width) : Option Word :=
  if backed s.params.regions pa.toNat w.bytes then some (Memory.readLE s.mem pa.toNat w.bytes) else none

/-- `PhysWrite(pa, n, v)`: the state with the bytes stored, or no mapping and nothing written (R64, R65). -/
def State.physWrite (s : State) (pa : Word) (w : Width) (v : Word) : Option State :=
  if backed s.params.regions pa.toNat w.bytes then some { s with mem := Memory.writeLE s.mem pa.toNat w.bytes v } else none

/-- `Fetch(pc)`: the word at `pc`, a physical address, or no mapping (R70). It reads neither `satp` nor `priv`. -/
def State.fetch (s : State) : Option InstrWord :=
  match s.physRead s.pc .word with
  | none => none
  | some v => some (v.setWidth 32)

/-- An instruction word stored where the next fetch reads it; where no region backs `pc`, nothing is written. -/
def State.placeWord (s : State) (w : InstrWord) : State :=
  match s.physWrite s.pc .word (w.setWidth 64) with
  | none => s
  | some t => t

end Sys2Proof.Machine
end

