-- ==== Sys2Proof/Machine/Mmu.lean ====
section
/-! DEFINITION. Address translation (20_memory section 6): the walk, Translate, and the load and store paths MemRead and MemWrite.
Translation reads `satp`, the parameters and memory, and nothing else (R80, R90); it changes nothing (R89, R91). -/

namespace Sys2Proof.Machine

/-- The mode named by `satp[63:60]`; none for the reserved values (R81). -/
def transModeOf (m : BitVec 4) : Option TransMode :=
  match m with
  | 0#4 => some .bare
  | 8#4 => some .sv39
  | 9#4 => some .sv48
  | 10#4 => some .sv57
  | _ => none

/-- `satp[63:60]` (R42). -/
def satpMode (satp : Word) : BitVec 4 := satp.extractLsb' 60 4

/-- `zext(satp[43:0]) << 12`, the root table's physical address (R42, R85). -/
def rootTable (satp : Word) : Word := (satp.extractLsb' 0 44).setWidth 64 <<< 12

/-- `VPN[i]` (R83). -/
def vpn (va : Word) (i : Nat) : BitVec 9 := va.extractLsb' (12 + 9 * i) 9

/-- The physical address of the entry of table `a` for level `i` (R85). -/
def pteAddress (a va : Word) (i : Nat) : Word := a + (vpn va i).setWidth 64 * 8#64

/-- V, bit 0 (R84). -/
def pteValid (pte : Word) : Bool := pte.getLsbD 0

/-- R, W or X is set: the entry is a leaf (R85). -/
def pteLeaf (pte : Word) : Bool := pte.getLsbD 1 || pte.getLsbD 2 || pte.getLsbD 3

/-- `zext(pte[53:10]) << 12`, the next table's physical address (R85). -/
def pteTable (pte : Word) : Word := (pte.extractLsb' 10 44).setWidth 64 <<< 12

/-- `{8'b0, pte[53:10], va[11:0]}`, at whatever level the leaf stands (R85, R87, D17). -/
def leafAddress (pte va : Word) : Word := 0#8 ++ pte.extractLsb' 10 44 ++ va.extractLsb' 0 12

/-- The walk over the levels `i - 1` down to 0 from table `a` (R85): a missing or invalid entry, or no leaf after the last level,
fails (R86, D16). -/
def State.walk (s : State) (va : Word) : Nat → Word → Translation
  | 0, _ => .fail
  | i + 1, a =>
    match s.physRead (pteAddress a va i) .double with
    | none => .fail
    | some pte =>
      if !pteValid pte then .fail
      else if pteLeaf pte then .ok (leafAddress pte va) (pte.getLsbD 1) (pte.getLsbD 2) (pte.getLsbD 3)
      else s.walk va i (pteTable pte)

/-- The translation in a given mode: identity in Bare (R82), else a walk of 3, 4 or 5 levels (R81). -/
def State.translateIn (s : State) (va : Word) : TransMode → Translation
  | .bare => .ok va true true true
  | .sv39 => s.walk va 3 (rootTable s.satp)
  | .sv48 => s.walk va 4 (rootTable s.satp)
  | .sv57 => s.walk va 5 (rootTable s.satp)

/-- `Translate(va)` (R80, R81): `Unsupported` for a mode that is not in `SATP_MODES` (R88). -/
def State.translate (s : State) (va : Word) : Translation :=
  match transModeOf (satpMode s.satp) with
  | none => .unsupported
  | some m => if s.params.satpModes.contains m then s.translateIn va m else .unsupported

/-- `MemRead(va, n)`, the load path (R92). One translation, by the first byte (R94). -/
def State.memRead (s : State) (va : Word) (w : Width) : Access Word :=
  match s.translate va with
  | .unsupported => .notImplemented
  | .fail => .raised (.loadPageFault va)
  | .ok pa r _ _ =>
    if !r then .raised (.loadPageFault va)
    else
      match s.physRead pa w with
      | none => .raised (.loadAccessFault va)
      | some d => .done d

/-- `MemWrite(va, n, v)`, the store path (R93); it answers the state with the bytes stored. -/
def State.memWrite (s : State) (va : Word) (w : Width) (v : Word) : Access State :=
  match s.translate va with
  | .unsupported => .notImplemented
  | .fail => .raised (.storePageFault va)
  | .ok pa _ wr _ =>
    if !wr then .raised (.storePageFault va)
    else
      match s.physWrite pa w v with
      | none => .raised (.storeAccessFault va)
      | some t => .done t

end Sys2Proof.Machine
end

