-- ==== Sys2Proof/Machine/Ops.lean ====
section
/-! DEFINITION. The named operations over the registers: general registers (10_state R20, R21), `pc` (R24), the CSR bank (R29 to R31),
taking an exception (60_exceptions R260 to R272) and returning from one (R277). The operations over memory are in Fabric and Mmu. -/

namespace Sys2Proof.Machine

/-! ### General registers and pc -/

/-- `x[i]`: index 0 is always read as 0 (R21). -/
def State.x (s : State) (i : Reg) : Word := if i = 0#5 then 0#64 else s.gpr[i.toNat]

/-- `x[i] <- v`: a write to index 0 is discarded (R21). -/
def State.setX (s : State) (i : Reg) (v : Word) : State :=
  if i = 0#5 then s else { s with gpr := s.gpr.set i.toNat v }

/-- `pc <- t` (R24). -/
def State.setPc (s : State) (t : Word) : State := { s with pc := t }

/-- `pc <- pc + 4`, modulo 2^64 (R25, R26). -/
def State.advance (s : State) : State := s.setPc (s.pc + 4#64)

/-- The end of an instruction that writes one register: `x[rd] <- v`, then `pc <- pc + 4` (R25). -/
def State.retire (s : State) (rd : Reg) (v : Word) : State := (s.setX rd v).advance

/-! ### The CSR bank -/

/-- `csr[a]` (R30); the addresses are those of R32. Every address answers, in every mode (R44). -/
def State.csr (s : State) (a : CsrAddr) : Word :=
  match a with
  | 0x180#12 => s.satp
  | 0x300#12 => s.mstatus
  | 0x301#12 => s.misa
  | 0x304#12 => s.mie
  | 0x305#12 => s.mtvec
  | 0x341#12 => s.mepc
  | 0x342#12 => s.mcause
  | 0x343#12 => s.mtval
  | 0x344#12 => s.mip
  | 0xF14#12 => s.mhartid
  | a => Sparse.get s.csrs a.toNat

/-- `csr[a] <- v`: slot 0 discards the write, every other slot takes all 64 bits (R31), in every mode (R44). -/
def State.setCsr (s : State) (a : CsrAddr) (v : Word) : State :=
  match a with
  | 0x000#12 => s
  | 0x180#12 => { s with satp := v }
  | 0x300#12 => { s with mstatus := v }
  | 0x301#12 => { s with misa := v }
  | 0x304#12 => { s with mie := v }
  | 0x305#12 => { s with mtvec := v }
  | 0x341#12 => { s with mepc := v }
  | 0x342#12 => { s with mcause := v }
  | 0x343#12 => { s with mtval := v }
  | 0x344#12 => { s with mip := v }
  | 0xF14#12 => { s with mhartid := v }
  | a => { s with csrs := Sparse.set s.csrs a.toNat v }

/-- An address whose slot is held in `csrs`: neither 0 nor one of the ten of R32. -/
def plainCsr (a : Nat) : Bool :=
  a ≠ 0 && a < 4096 && !([0x180, 0x300, 0x301, 0x304, 0x305, 0x341, 0x342, 0x343, 0x344, 0xF14].contains a)

/-! ### Taking an exception -/

/-- The cause code of a fault kind, bit 63 = 0 (R262). -/
def Exception.code : Exception → Word
  | .instructionAddressMisaligned _ => 0#64
  | .instructionAccessFault _ => 1#64
  | .illegalInstruction => 2#64
  | .breakpoint => 3#64
  | .loadAddressMisaligned _ => 4#64
  | .loadAccessFault _ => 5#64
  | .storeAddressMisaligned _ => 6#64
  | .storeAccessFault _ => 7#64
  | .environmentCallFromU => 8#64
  | .environmentCallFromS => 9#64
  | .environmentCallFromH => 10#64
  | .environmentCallFromM => 11#64
  | .instructionPageFault _ => 12#64
  | .loadPageFault _ => 13#64
  | .storePageFault _ => 15#64

/-- The trap value: the address the fault carries, else 0 (R263, D20). -/
def Exception.trapValue : Exception → Word
  | .instructionAddressMisaligned a => a
  | .instructionAccessFault a => a
  | .illegalInstruction => 0#64
  | .breakpoint => 0#64
  | .loadAddressMisaligned a => a
  | .loadAccessFault a => a
  | .storeAddressMisaligned a => a
  | .storeAccessFault a => a
  | .environmentCallFromU => 0#64
  | .environmentCallFromS => 0#64
  | .environmentCallFromH => 0#64
  | .environmentCallFromM => 0#64
  | .instructionPageFault a => a
  | .loadPageFault a => a
  | .storePageFault a => a

/-- The trap target `mtvec & ~3`, whatever `mtvec.MODE` (R272, D21). -/
def trapTarget (mtvec : Word) : Word := mtvec &&& ~~~3#64

/-- The eight writes of trap entry (R270); every right-hand side reads the state before it. -/
def State.enterTrap (s : State) (e : Exception) : State :=
  { s with
    mepc := s.pc
    mcause := e.code
    mtval := e.trapValue
    mstatus := mstatusOnTrap s.mstatus s.priv
    priv := .machine
    pc := trapTarget s.mtvec }

/-- Trap entry behind the gate of `TRAP_GATE_OBSERVED` (R271): a closed gate changes nothing. -/
def State.trapEntry (s : State) (e : Exception) : State :=
  if s.params.trapGateObserved && !trapGateOpen s then s else s.enterTrap e

/-- The outputs of a step that raised `e`: `fault_out`, and `debug_trap` for a breakpoint alone (R260, R284). -/
def State.report (s : State) (e : Exception) : State :=
  { s with faultOut := some e, debugTrap := decide (e = .breakpoint) }

/-- `raise`: the outputs are set and trap entry follows in the same step (R13, R260). -/
def State.raise (s : State) (e : Exception) : State := (s.report e).trapEntry e

/-- The return from a trap: MIE from MPIE, the mode from MPP, `pc` from `mepc` with no bit cleared; MPIE and MPP keep their
values (R237, R277, D22). -/
def State.returnFromTrap (s : State) : State :=
  { s with
    mstatus := mstatusOnReturn s.mstatus
    priv := decodeMode (mstatusMpp s.mstatus)
    pc := s.mepc }

/-! ### The start of a step and reset -/

/-- `fault_out <- none ; debug_trap <- false` (R260). -/
def State.beginStep (s : State) : State := { s with faultOut := none, debugTrap := false }

/-- `instr_out <- inst` (R260). -/
def State.latchInstr (s : State) (w : InstrWord) : State := { s with instrOut := w }

/-- Reset applied to a running machine: the hart is reset, `REGIONS` and memory stay (R300). -/
def State.applyReset (s : State) : State := State.resetWith s.params s.mem

end Sys2Proof.Machine
end

