-- ==== Sys2Proof/Machine/Operands.lean ====
section
/-! DEFINITION. The operand forms (30_encoding section 2): the immediates as 64-bit values, shift amounts, the `uimm` of the CSR
immediate forms, and the effective address of a load or store (R170). -/

namespace Sys2Proof.Machine

/-- `immI`, and `immS` once reassembled: 12 bits, sign-extended, never shifted (R118, R119, R124). -/
def imm12 (imm : BitVec 12) : Word := imm.signExtend 64

/-- `immB`: a 13-bit byte offset, sign-extended (R120). -/
def immB (off : BitVec 13) : Word := off.signExtend 64

/-- `immJ`: a 21-bit byte offset, sign-extended (R122). -/
def immJ (off : BitVec 21) : Word := off.signExtend 64

/-- `immU = sext_32({inst[31:12], 12'b0})` (R121). -/
def immU (imm20 : BitVec 20) : Word := (imm20 ++ 0#12).signExtend 64

/-- `uimm = zext_5(inst[19:15])` (R123). -/
def uimmWord (u : BitVec 5) : Word := u.setWidth 64

/-- `x[rs2] & 63`, the amount of a 64-bit register shift (R203, R212). -/
def shiftAmount64 (v : Word) : Nat := (v &&& 63#64).toNat

/-- `x[rs2] & 31`, the amount of a "-32" register shift (R222, D26). -/
def shiftAmount32 (v : Word) : Nat := (v &&& 31#64).toNat

/-- `ea = x[rs1] + sext(imm)`, modulo 2^64 (R170). -/
def effectiveAddress (s : State) (rs1 : Reg) (imm : BitVec 12) : Word := s.x rs1 + imm12 imm

end Sys2Proof.Machine
end

