-- ==== Sys2Proof/Machine/Fence.lean ====
section
/-! DEFINITION. FENCE (45_fence). -/

namespace Sys2Proof.Machine

/-- FENCE (R230): only `pc <- pc + 4`; every field is ignored (D30) and nothing needs ordering (R96). -/
def execFence (_fm _pred _succ : BitVec 4) (_rs1 : Reg) (_funct3 : BitVec 3) (_rd : Reg) (s : State) : Host.Outcome State Fault Refusal :=
  .next s.advance

end Sys2Proof.Machine
end

