-- ==== Sys2Proof/Machine/Jump.lean ====
section
/-! DEFINITION. JAL, JALR and the conditional branches (41_jumps_branches). No target is checked (R158). -/

namespace Sys2Proof.Machine

/-- The shared shape of the jumps: `x[rd] <- pc + 4`, `pc <- target` (R150, R151). -/
def jumpTo (s : State) (rd : Reg) (target : Word) : State := (s.setX rd (s.pc + 4#64)).setPc target

/-- The shared shape of the branches: `pc + immB` if taken, else `pc + 4` (41 section 3). -/
def branchIf (taken : Bool) (off : BitVec 13) (s : State) : State :=
  if taken then s.setPc (s.pc + immB off) else s.advance

/-- `(x[rs1] + immI) & ~1`, the target of JALR (R151). -/
def jalrTarget (s : State) (rs1 : Reg) (imm : BitVec 12) : Word := (s.x rs1 + imm12 imm) &&& ~~~1#64

/-- JAL (R150). -/
def execJal (rd : Reg) (off : BitVec 21) (s : State) : Host.Outcome State Fault Refusal :=
  .next (jumpTo s rd (s.pc + immJ off))

/-- JALR (R151): the target is computed from the old `x[rs1]` (D32); `funct3` is not examined (D31). -/
def execJalr (rd rs1 : Reg) (imm : BitVec 12) (_funct3 : BitVec 3) (s : State) : Host.Outcome State Fault Refusal :=
  .next (jumpTo s rd (jalrTarget s rs1 imm))

/-- BEQ (R152): taken if `x[rs1] = x[rs2]`. -/
def execBeq (rs1 rs2 : Reg) (off : BitVec 13) (s : State) : Host.Outcome State Fault Refusal :=
  .next (branchIf (s.x rs1 == s.x rs2) off s)

/-- BNE (R153): taken if `x[rs1] != x[rs2]`. -/
def execBne (rs1 rs2 : Reg) (off : BitVec 13) (s : State) : Host.Outcome State Fault Refusal :=
  .next (branchIf (s.x rs1 != s.x rs2) off s)

/-- BLT (R154): taken if `x[rs1] <s x[rs2]`. -/
def execBlt (rs1 rs2 : Reg) (off : BitVec 13) (s : State) : Host.Outcome State Fault Refusal :=
  .next (branchIf (ltSigned (s.x rs1) (s.x rs2)) off s)

/-- BGE (R155): taken if `x[rs1] >=s x[rs2]`. -/
def execBge (rs1 rs2 : Reg) (off : BitVec 13) (s : State) : Host.Outcome State Fault Refusal :=
  .next (branchIf (!ltSigned (s.x rs1) (s.x rs2)) off s)

/-- BLTU (R156): taken if `x[rs1] <u x[rs2]`. -/
def execBltu (rs1 rs2 : Reg) (off : BitVec 13) (s : State) : Host.Outcome State Fault Refusal :=
  .next (branchIf (ltUnsigned (s.x rs1) (s.x rs2)) off s)

/-- BGEU (R157): taken if `x[rs1] >=u x[rs2]`. -/
def execBgeu (rs1 rs2 : Reg) (off : BitVec 13) (s : State) : Host.Outcome State Fault Refusal :=
  .next (branchIf (!ltUnsigned (s.x rs1) (s.x rs2)) off s)

end Sys2Proof.Machine
end

