-- ==== Sys2Proof/Machine/Load.lean ====
section
/-! DEFINITION. The loads (42_loads_stores section 2). -/

namespace Sys2Proof.Machine

/-- The shared shape of the loads (R182): the value read at the effective address, extended, goes to `rd`; a fault leaves `rd` and
is taken as a trap; `NotImplemented` is refused (R265). -/
def loadWith (w : Width) (ext : Word → Word) (rd rs1 : Reg) (imm : BitVec 12) (s : State) : Host.Outcome State Fault Refusal :=
  match s.memRead (effectiveAddress s rs1 imm) w with
  | .done v => .next (s.retire rd (ext v))
  | .raised e => .next (s.raise e)
  | .notImplemented => .refused .translationNotImplemented

/-- LB (R171). -/
def execLb (rd rs1 : Reg) (imm : BitVec 12) (s : State) : Host.Outcome State Fault Refusal :=
  loadWith .byte (sext 8) rd rs1 imm s

/-- LH (R172). -/
def execLh (rd rs1 : Reg) (imm : BitVec 12) (s : State) : Host.Outcome State Fault Refusal :=
  loadWith .half (sext 16) rd rs1 imm s

/-- LW (R173). -/
def execLw (rd rs1 : Reg) (imm : BitVec 12) (s : State) : Host.Outcome State Fault Refusal :=
  loadWith .word (sext 32) rd rs1 imm s

/-- LD (R174). -/
def execLd (rd rs1 : Reg) (imm : BitVec 12) (s : State) : Host.Outcome State Fault Refusal :=
  loadWith .double id rd rs1 imm s

/-- LBU (R175). -/
def execLbu (rd rs1 : Reg) (imm : BitVec 12) (s : State) : Host.Outcome State Fault Refusal :=
  loadWith .byte (zext 8) rd rs1 imm s

/-- LHU (R176). -/
def execLhu (rd rs1 : Reg) (imm : BitVec 12) (s : State) : Host.Outcome State Fault Refusal :=
  loadWith .half (zext 16) rd rs1 imm s

/-- LWU (R177). -/
def execLwu (rd rs1 : Reg) (imm : BitVec 12) (s : State) : Host.Outcome State Fault Refusal :=
  loadWith .word (zext 32) rd rs1 imm s

end Sys2Proof.Machine
end

