-- ==== Sys2Proof/Machine/Op.lean ====
section
/-! DEFINITION. OP and OP-32 (44_op). -/

namespace Sys2Proof.Machine

/-- ADD (R210). -/
def execAdd (rd rs1 rs2 : Reg) (s : State) : Host.Outcome State Fault Refusal :=
  .next (s.retire rd (s.x rs1 + s.x rs2))

/-- SUB (R211). -/
def execSub (rd rs1 rs2 : Reg) (s : State) : Host.Outcome State Fault Refusal :=
  .next (s.retire rd (s.x rs1 - s.x rs2))

/-- SLL (R212). -/
def execSll (rd rs1 rs2 : Reg) (s : State) : Host.Outcome State Fault Refusal :=
  .next (s.retire rd (shiftLeft64 (s.x rs1) (shiftAmount64 (s.x rs2))))

/-- SLT (R213). -/
def execSlt (rd rs1 rs2 : Reg) (s : State) : Host.Outcome State Fault Refusal :=
  .next (s.retire rd (boolWord (ltSigned (s.x rs1) (s.x rs2))))

/-- SLTU (R214). -/
def execSltu (rd rs1 rs2 : Reg) (s : State) : Host.Outcome State Fault Refusal :=
  .next (s.retire rd (boolWord (ltUnsigned (s.x rs1) (s.x rs2))))

/-- XOR (R215). -/
def execXor (rd rs1 rs2 : Reg) (s : State) : Host.Outcome State Fault Refusal :=
  .next (s.retire rd (s.x rs1 ^^^ s.x rs2))

/-- SRL (R216). -/
def execSrl (rd rs1 rs2 : Reg) (s : State) : Host.Outcome State Fault Refusal :=
  .next (s.retire rd (shiftRightU64 (s.x rs1) (shiftAmount64 (s.x rs2))))

/-- SRA (R217). -/
def execSra (rd rs1 rs2 : Reg) (s : State) : Host.Outcome State Fault Refusal :=
  .next (s.retire rd (shiftRightS64 (s.x rs1) (shiftAmount64 (s.x rs2))))

/-- OR (R218). -/
def execOr (rd rs1 rs2 : Reg) (s : State) : Host.Outcome State Fault Refusal :=
  .next (s.retire rd (s.x rs1 ||| s.x rs2))

/-- AND (R219). -/
def execAnd (rd rs1 rs2 : Reg) (s : State) : Host.Outcome State Fault Refusal :=
  .next (s.retire rd (s.x rs1 &&& s.x rs2))

/-- ADDW (R220). -/
def execAddw (rd rs1 rs2 : Reg) (s : State) : Host.Outcome State Fault Refusal :=
  .next (s.retire rd (addW (s.x rs1) (s.x rs2)))

/-- SUBW (R221). -/
def execSubw (rd rs1 rs2 : Reg) (s : State) : Host.Outcome State Fault Refusal :=
  .next (s.retire rd (subW (s.x rs1) (s.x rs2)))

/-- SLLW (R222). -/
def execSllw (rd rs1 rs2 : Reg) (s : State) : Host.Outcome State Fault Refusal :=
  .next (s.retire rd (shiftLeftW (s.x rs1) (shiftAmount32 (s.x rs2))))

/-- SRLW (R223). -/
def execSrlw (rd rs1 rs2 : Reg) (s : State) : Host.Outcome State Fault Refusal :=
  .next (s.retire rd (shiftRightUW (s.x rs1) (shiftAmount32 (s.x rs2))))

/-- SRAW (R224). -/
def execSraw (rd rs1 rs2 : Reg) (s : State) : Host.Outcome State Fault Refusal :=
  .next (s.retire rd (shiftRightSW (s.x rs1) (shiftAmount32 (s.x rs2))))

end Sys2Proof.Machine
end

