-- ==== Sys2Proof/Machine/OpImm.lean ====
section
/-! DEFINITION. OP-IMM and OP-IMM-32 (43_op_imm). -/

namespace Sys2Proof.Machine

/-- ADDI (R190). -/
def execAddi (rd rs1 : Reg) (imm : BitVec 12) (s : State) : Host.Outcome State Fault Refusal :=
  .next (s.retire rd (s.x rs1 + imm12 imm))

/-- SLTI (R191). -/
def execSlti (rd rs1 : Reg) (imm : BitVec 12) (s : State) : Host.Outcome State Fault Refusal :=
  .next (s.retire rd (boolWord (ltSigned (s.x rs1) (imm12 imm))))

/-- SLTIU (R192). -/
def execSltiu (rd rs1 : Reg) (imm : BitVec 12) (s : State) : Host.Outcome State Fault Refusal :=
  .next (s.retire rd (boolWord (ltUnsigned (s.x rs1) (imm12 imm))))

/-- XORI (R193). -/
def execXori (rd rs1 : Reg) (imm : BitVec 12) (s : State) : Host.Outcome State Fault Refusal :=
  .next (s.retire rd (s.x rs1 ^^^ imm12 imm))

/-- ORI (R194). -/
def execOri (rd rs1 : Reg) (imm : BitVec 12) (s : State) : Host.Outcome State Fault Refusal :=
  .next (s.retire rd (s.x rs1 ||| imm12 imm))

/-- ANDI (R195). -/
def execAndi (rd rs1 : Reg) (imm : BitVec 12) (s : State) : Host.Outcome State Fault Refusal :=
  .next (s.retire rd (s.x rs1 &&& imm12 imm))

/-- SLLI (R196). -/
def execSlli (rd rs1 : Reg) (shamt : BitVec 6) (s : State) : Host.Outcome State Fault Refusal :=
  .next (s.retire rd (shiftLeft64 (s.x rs1) shamt.toNat))

/-- SRLI (R197). -/
def execSrli (rd rs1 : Reg) (shamt : BitVec 6) (s : State) : Host.Outcome State Fault Refusal :=
  .next (s.retire rd (shiftRightU64 (s.x rs1) shamt.toNat))

/-- SRAI (R198). -/
def execSrai (rd rs1 : Reg) (shamt : BitVec 6) (s : State) : Host.Outcome State Fault Refusal :=
  .next (s.retire rd (shiftRightS64 (s.x rs1) shamt.toNat))

/-- ADDIW (R199). -/
def execAddiw (rd rs1 : Reg) (imm : BitVec 12) (s : State) : Host.Outcome State Fault Refusal :=
  .next (s.retire rd (addW (s.x rs1) (imm12 imm)))

/-- SLLIW (R200). -/
def execSlliw (rd rs1 : Reg) (shamt : BitVec 5) (s : State) : Host.Outcome State Fault Refusal :=
  .next (s.retire rd (shiftLeftW (s.x rs1) shamt.toNat))

/-- SRLIW (R201). -/
def execSrliw (rd rs1 : Reg) (shamt : BitVec 5) (s : State) : Host.Outcome State Fault Refusal :=
  .next (s.retire rd (shiftRightUW (s.x rs1) shamt.toNat))

/-- SRAIW (R202). -/
def execSraiw (rd rs1 : Reg) (shamt : BitVec 5) (s : State) : Host.Outcome State Fault Refusal :=
  .next (s.retire rd (shiftRightSW (s.x rs1) shamt.toNat))

end Sys2Proof.Machine
end

