-- ==== Sys2Proof/Machine/Store.lean ====
section
/-! DEFINITION. The stores (42_loads_stores section 3). -/

namespace Sys2Proof.Machine

/-- The shared shape of the stores (R182): the low bytes of `x[rs2]` go to the effective address; a fault changes no byte and is taken
as a trap; `NotImplemented` is refused (R265). -/
def storeWith (w : Width) (rs1 rs2 : Reg) (imm : BitVec 12) (s : State) : Host.Outcome State Fault Refusal :=
  match s.memWrite (effectiveAddress s rs1 imm) w (s.x rs2) with
  | .done t => .next t.advance
  | .raised e => .next (s.raise e)
  | .notImplemented => .refused .translationNotImplemented

/-- SB (R178). -/
def execSb (rs1 rs2 : Reg) (imm : BitVec 12) (s : State) : Host.Outcome State Fault Refusal :=
  storeWith .byte rs1 rs2 imm s

/-- SH (R179). -/
def execSh (rs1 rs2 : Reg) (imm : BitVec 12) (s : State) : Host.Outcome State Fault Refusal :=
  storeWith .half rs1 rs2 imm s

/-- SW (R180). -/
def execSw (rs1 rs2 : Reg) (imm : BitVec 12) (s : State) : Host.Outcome State Fault Refusal :=
  storeWith .word rs1 rs2 imm s

/-- SD (R181). -/
def execSd (rs1 rs2 : Reg) (imm : BitVec 12) (s : State) : Host.Outcome State Fault Refusal :=
  storeWith .double rs1 rs2 imm s

end Sys2Proof.Machine
end

