-- ==== Sys2Proof/Machine/System.lean ====
section
/-! DEFINITION. SYSTEM: ECALL, EBREAK, MRET and the CSR instructions (46_system). No privilege is checked (R44, D2). -/

namespace Sys2Proof.Machine

/-- The environment call of a mode (R235, D23). -/
def environmentCall : PrivMode → Exception
  | .user => .environmentCallFromU
  | .supervisor => .environmentCallFromS
  | .hypervisor => .environmentCallFromH
  | .machine => .environmentCallFromM

/-- The shared shape of the CSR instructions (R244): the old value is read, the new one always written through the write path, the
old one goes to `rd`. Every right-hand side reads the state before the instruction. -/
def csrUpdate (s : State) (rd : Reg) (csr : CsrAddr) (new : Word) : State :=
  (s.setCsr csr new).retire rd (s.csr csr)

/-- ECALL (R235): takes the environment-call exception of the current mode; `mepc` gets this ECALL's address. -/
def execEcall (s : State) : Host.Outcome State Fault Refusal :=
  .next (s.raise (environmentCall s.priv))

/-- EBREAK (R236): takes Breakpoint by normal trap entry, with `debug_trap` true (90_conflicts C3). -/
def execEbreak (s : State) : Host.Outcome State Fault Refusal :=
  .next (s.raise .breakpoint)

/-- MRET (R237), legal in every mode. -/
def execMret (s : State) : Host.Outcome State Fault Refusal :=
  .next s.returnFromTrap

/-- CSRRW (R238). -/
def execCsrrw (rd : Reg) (csr : CsrAddr) (rs1 : Reg) (s : State) : Host.Outcome State Fault Refusal :=
  .next (csrUpdate s rd csr (s.x rs1))

/-- CSRRS (R239). -/
def execCsrrs (rd : Reg) (csr : CsrAddr) (rs1 : Reg) (s : State) : Host.Outcome State Fault Refusal :=
  .next (csrUpdate s rd csr (s.csr csr ||| s.x rs1))

/-- CSRRC (R240). -/
def execCsrrc (rd : Reg) (csr : CsrAddr) (rs1 : Reg) (s : State) : Host.Outcome State Fault Refusal :=
  .next (csrUpdate s rd csr (s.csr csr &&& ~~~s.x rs1))

/-- CSRRWI (R241). -/
def execCsrrwi (rd : Reg) (csr : CsrAddr) (uimm : BitVec 5) (s : State) : Host.Outcome State Fault Refusal :=
  .next (csrUpdate s rd csr (uimmWord uimm))

/-- CSRRSI (R242). -/
def execCsrrsi (rd : Reg) (csr : CsrAddr) (uimm : BitVec 5) (s : State) : Host.Outcome State Fault Refusal :=
  .next (csrUpdate s rd csr (s.csr csr ||| uimmWord uimm))

/-- CSRRCI (R243). -/
def execCsrrci (rd : Reg) (csr : CsrAddr) (uimm : BitVec 5) (s : State) : Host.Outcome State Fault Refusal :=
  .next (csrUpdate s rd csr (s.csr csr &&& ~~~uimmWord uimm))

end Sys2Proof.Machine
end

