-- ==== Sys2Proof/Machine/Upper.lean ====
section
/-! DEFINITION. LUI and AUIPC (40_lui_auipc). -/

namespace Sys2Proof.Machine

/-- LUI (R140): `x[rd] <- immU`. -/
def execLui (rd : Reg) (imm20 : BitVec 20) (s : State) : Host.Outcome State Fault Refusal :=
  .next (s.retire rd (immU imm20))

/-- AUIPC (R141): `x[rd] <- pc + immU`, `pc` being the address of this AUIPC. -/
def execAuipc (rd : Reg) (imm20 : BitVec 20) (s : State) : Host.Outcome State Fault Refusal :=
  .next (s.retire rd (s.pc + immU imm20))

end Sys2Proof.Machine
end

