-- ==== Sys2Proof/Machine/Cycle.lean ====
section
/-! DEFINITION. The cycle of 60_exceptions R260: the outputs are cleared, the word at `pc` is fetched, decoded and executed; a failed
fetch and an illegal word take their exceptions. No interrupt is looked for (R275). -/

namespace Sys2Proof.Machine

/-- Decode and execute a fetched word (R260): an illegal word raises IllegalInstruction and changes nothing before trap entry
(R128). -/
def runWord (s : State) (w : InstrWord) : Host.Outcome State Fault Refusal :=
  match decode w with
  | .error _ => .next ((s.latchInstr w).raise .illegalInstruction)
  | .ok i => exec i (s.latchInstr w)

/-- Fetch, then run the word; a fetch that fits no region raises InstructionAccessFault carrying `pc` (R70). -/
def fetchAndRun (s : State) : Host.Outcome State Fault Refusal :=
  match s.fetch with
  | none => .next (s.raise (.instructionAccessFault s.pc))
  | some w => runWord s w

/-- `Step()` of R260, refused where the memory map is not legal (R61, log 6). -/
def runCycle (s : State) : Host.Outcome State Fault Refusal :=
  if legalRegions s.params.regions then fetchAndRun s.beginStep else .refused .illegalRegions

end Sys2Proof.Machine
end

