-- ==== Sys2Proof/Machine/Step.lean ====
section
/-! DEFINITION. The step of the hart (00_scope R12, 60_exceptions R260), and an instruction placed where the next step fetches it. -/

namespace Sys2Proof.Machine

/-- One step: fetch, decode, execute and, on a fault, trap entry (R12, R260). -/
def step (s : State) : Host.Outcome State Fault Refusal := runCycle s

/-- `s` with the instruction of the low `nbits` bits of `w` stored at `pc`, little-endian, every higher bit of its 32 being 0. It stands
for the loading of a program before the first step (R302, log 10). -/
def State.withFetchWord (s : State) (nbits w : Nat) : State := s.placeWord (BitVec.ofNat 32 (w % 2 ^ nbits))

end Sys2Proof.Machine
end

