-- ==== Sys2Proof/Machine/Driver.lean ====
section
/-! DEFINITION. The host's side of the block (70_reset_and_hazards section 3): step N times, run until debugger trap, loading an image,
and the debugger's reads of registers and reads and writes of memory. None of it is part of a step (R316, log 9). -/

namespace Sys2Proof.Machine

/-- "Step N times" (R311): faults do not end it early, a debugger trap does (D41). It answers the first stop of a step as it is. -/
def stepTimes : Nat → State → Host.Outcome State Fault Refusal
  | 0, s => .next s
  | n + 1, s =>
    match step s with
    | .next t => if t.debugTrap then .next t else stepTimes n t
    | .fault r => .fault r
    | .refused r => .refused r

/-- "Run until debugger trap" (R312) within a step budget the driver imposes (log 13): the state after the step that ended with
`debug_trap` true, none if the budget ran out or a step stopped. -/
def runUntilDebugTrap : Nat → State → Option State
  | 0, _ => none
  | n + 1, s =>
    match step s with
    | .next t => if t.debugTrap then some t else runUntilDebugTrap n t
    | .fault _ => none
    | .refused _ => none

/-- What a debugger's register name stands for (R313): `pc`, a general register or a CSR. No name stands for `priv`. -/
inductive DebugReg where
  | pc
  | gpr (i : Reg)
  | csr (a : CsrAddr)
  deriving DecidableEq, Repr

/-- A debugger's read of a register, without side effect (R313). -/
def State.debugRead (s : State) : DebugReg → Word
  | .pc => s.pc
  | .gpr i => s.x i
  | .csr a => s.csr a

/-- The general registers' symbolic names, the aliases of R22. The source does not give its table.
PRESUMED (log 14, unsafe only for by-name reads). -/
def gprNames : List (String × Reg) :=
  [("zero", 0), ("ra", 1), ("sp", 2), ("gp", 3), ("tp", 4), ("t0", 5), ("t1", 6), ("t2", 7), ("s0", 8), ("fp", 8), ("s1", 9),
   ("a0", 10), ("a1", 11), ("a2", 12), ("a3", 13), ("a4", 14), ("a5", 15), ("a6", 16), ("a7", 17), ("s2", 18), ("s3", 19)] ++
  [("s4", 20), ("s5", 21), ("s6", 22), ("s7", 23), ("s8", 24), ("s9", 25), ("s10", 26), ("s11", 27), ("t3", 28), ("t4", 29),
   ("t5", 30), ("t6", 31)]

/-- The CSR names of R32 and R43. PRESUMED (log 14). -/
def csrNames : List (String × CsrAddr) :=
  [("satp", 0x180), ("mstatus", 0x300), ("misa", 0x301), ("mie", 0x304), ("mtvec", 0x305), ("mepc", 0x341), ("mcause", 0x342),
   ("mtval", 0x343), ("mip", 0x344), ("mhartid", 0xF14)] ++
  [("sstatus", 0x100), ("sie", 0x104), ("stvec", 0x105), ("sscratch", 0x140), ("sepc", 0x141), ("scause", 0x142),
   ("stval", 0x143), ("sip", 0x144), ("medeleg", 0x302), ("mideleg", 0x303), ("mcounteren", 0x306), ("mscratch", 0x340)] ++
  [("pmpcfg0", 0x3A0), ("pmpaddr0", 0x3B0), ("mcycle", 0xB00), ("minstret", 0xB02), ("cycle", 0xC00), ("time", 0xC01),
   ("instret", 0xC02), ("mvendorid", 0xF11), ("marchid", 0xF12), ("mimpid", 0xF13)]

/-- A bare general register index as a decimal string (R313). -/
def gprIndexNames : List (String × Reg) :=
  [("0", 0), ("1", 1), ("2", 2), ("3", 3), ("4", 4), ("5", 5), ("6", 6), ("7", 7), ("8", 8), ("9", 9), ("10", 10), ("11", 11),
   ("12", 12), ("13", 13), ("14", 14), ("15", 15)] ++
  [("16", 16), ("17", 17), ("18", 18), ("19", 19), ("20", 20), ("21", 21), ("22", 22), ("23", 23), ("24", 24), ("25", 25),
   ("26", 26), ("27", 27), ("28", 28), ("29", 29), ("30", 30), ("31", 31)]

/-- The register a name stands for (R313): `pc`, a decimal index, or a name of one of the two tables. -/
def debugResolve (name : String) : Option DebugReg :=
  if name = "pc" then some .pc
  else
    match (gprIndexNames ++ gprNames).lookup name with
    | some i => some (.gpr i)
    | none =>
      match csrNames.lookup name with
      | some a => some (.csr a)
      | none => none

/-- A debugger's read of memory: PhysRead, untranslated (R313). -/
def State.debugReadMem (s : State) (pa : Word) (w : Width) : Option Word := s.physRead pa w

/-- A debugger's write of memory: PhysWrite, untranslated (R313). -/
def State.debugWriteMem (s : State) (pa : Word) (w : Width) (v : Word) : Option State := s.physWrite pa w v

/-- The loader: the image's bytes stored from `pa` upward, none if a byte lies in no region (R302).
DESIGN CHOICE (log 18, unsafe): R302 speaks of an image loaded into its one region. Each byte is looked up on its own here, so an image
that does not fit in one region runs on into an adjacent one, and past 2^64 to address 0 where that is backed. -/
def State.loadImage (s : State) (pa : Word) : List Byte → Option State
  | [] => some s
  | b :: rest =>
    match s.physWrite pa .byte (b.setWidth 64) with
    | none => none
    | some t => t.loadImage (pa + 1#64) rest

end Sys2Proof.Machine
end

