-- ==== Sys2Proof/Safety.lean ====
section
/-! DEFINITION. The terms that claims are stated in: the invariant of the machine, what a step leaves unchanged, what it is to write a
register, store bytes, take a trap or answer a CSR instruction, the legal memory maps, and the page-table walk as a relation. All of
them speak through the reads of the state (`x`, `csr`, `byte`) and of exact integers, not through the operations the meanings use. -/

namespace Sys2Proof.Machine

/-! ### The invariant -/

/-- A fault kind the hardware raises (60_exceptions R261, third column). -/
def Exception.isRaised : Exception → Bool
  | .instructionAddressMisaligned _ | .loadAddressMisaligned _ | .storeAddressMisaligned _ | .instructionPageFault _ => false
  | .instructionAccessFault _ | .illegalInstruction | .breakpoint | .loadAccessFault _ | .storeAccessFault _ => true
  | .environmentCallFromU | .environmentCallFromS | .environmentCallFromH | .environmentCallFromM => true
  | .loadPageFault _ | .storePageFault _ => true

/-- What holds at reset and is kept by every step: `x0` is stored as 0 (R21); memory is in canonical form and every listed byte
belongs to a region (R61, R64); the other CSR slots are in canonical form and slot 0 is not among them (R31); the outputs fit
together (R260; at reset by the model's choice, log 4) and report only kinds that are raised (R261). -/
structure State.Inv (s : State) : Prop where
  zeroReg : s.gpr[0] = 0#64
  memWf : Memory.wf s.mem
  memBacked : ∀ c ∈ s.mem, backed s.params.regions c.1 1 = true
  csrsWf : Sparse.Canonical s.csrs
  csrsPlain : ∀ c ∈ s.csrs, plainCsr c.1 = true
  debugFits : s.debugTrap = decide (s.faultOut = some .breakpoint)
  faultRaised : ∀ e, s.faultOut = some e → e.isRaised = true

/-! ### Frames -/

/-- Every general register reads as before. -/
def SameRegs (s t : State) : Prop := ∀ r, t.x r = s.x r

/-- Every CSR slot reads as before. -/
def SameCsrs (s t : State) : Prop := ∀ a, t.csr a = s.csr a

/-- Every byte of memory reads as before. -/
def SameMem (s t : State) : Prop := ∀ a, t.byte a = s.byte a

/-- The mode, the parameters and the outputs are as before. -/
def SameRest (s t : State) : Prop :=
  t.priv = s.priv ∧ t.params = s.params ∧ t.faultOut = s.faultOut ∧ t.debugTrap = s.debugTrap ∧ t.instrOut = s.instrOut

/-- From `s` to `t`: `x[rd]` takes `v` unless `rd` is `x0`, `pc` takes `next`, and nothing else changes. -/
def WritesReg (s t : State) (rd : Reg) (v next : Word) : Prop :=
  (∀ r, t.x r = if r = rd ∧ r ≠ 0#5 then v else s.x r) ∧ t.pc = next ∧ SameCsrs s t ∧ SameMem s t ∧ SameRest s t

/-- From `s` to `t`: `pc` takes `next` and nothing else changes. -/
def OnlyPc (s t : State) (next : Word) : Prop :=
  t.pc = next ∧ SameRegs s t ∧ SameCsrs s t ∧ SameMem s t ∧ SameRest s t

/-- `pc + 4`, modulo 2^64 (R25, R26). -/
def nextPc (s : State) : Word := BitVec.ofNat 64 (s.pc.toNat + 4)

/-- `i` runs to a next state with `x[rd] <- v`, `pc <- pc + 4` and nothing else changed. -/
def Computes (i : Instr) (s : State) (rd : Reg) (v : Word) : Prop :=
  ∃ t, exec i s = .next t ∧ WritesReg s t rd v (nextPc s)

/-! ### Traps -/

/-- The number of a mode (R27). -/
def modeNumber : PrivMode → Nat
  | .user => 0
  | .supervisor => 1
  | .hypervisor => 2
  | .machine => 3

/-- Trap entry is not held by the gate of R271: the parameter is off, or the three bits are set. -/
def NotGated (s : State) : Prop :=
  s.params.trapGateObserved = false ∨
    ((s.csr 0x300#12).getLsbD 3 = true ∧ (s.csr 0x304#12).getLsbD 3 = true ∧ (s.csr 0x344#12).getLsbD 3 = true)

/-- From `s` to `t` the exception `e` is taken (R260, R270, R272): `mepc`, `mcause`, `mtval`, the three fields of `mstatus`, the mode,
`pc` and the outputs, and nothing else. -/
def TakesTrap (s t : State) (e : Exception) : Prop :=
  t.csr 0x341#12 = s.pc ∧ t.csr 0x342#12 = e.code ∧ t.csr 0x343#12 = e.trapValue ∧
  (∀ i < 64, (t.csr 0x300#12).getLsbD i =
    if i = 3 then false
    else if i = 7 then (s.csr 0x300#12).getLsbD 3
    else if i = 11 then (modeNumber s.priv).testBit 0
    else if i = 12 then (modeNumber s.priv).testBit 1
    else (s.csr 0x300#12).getLsbD i) ∧
  t.priv = .machine ∧ t.pc = BitVec.ofNat 64 ((s.csr 0x305#12).toNat / 4 * 4) ∧
  (∀ a, a ≠ 0x300#12 → a ≠ 0x341#12 → a ≠ 0x342#12 → a ≠ 0x343#12 → t.csr a = s.csr a) ∧
  SameRegs s t ∧ SameMem s t ∧ t.params = s.params ∧
  t.faultOut = some e ∧ t.debugTrap = decide (e = .breakpoint)

/-- From `s` to `t` the exception `e` is raised and the closed gate of R271 holds its entry: only the outputs change. -/
def HeldByGate (s t : State) (e : Exception) : Prop :=
  t.pc = s.pc ∧ SameRegs s t ∧ SameCsrs s t ∧ SameMem s t ∧ t.priv = s.priv ∧ t.params = s.params ∧
  t.faultOut = some e ∧ t.debugTrap = decide (e = .breakpoint)

/-- From `s` to `t` the exception `e` was raised: it is taken, or the gate holds it. -/
def Traps (s t : State) (e : Exception) : Prop := (NotGated s → TakesTrap s t e) ∧ (¬NotGated s → HeldByGate s t e)

/-- `o` is a next state, reached from `s` by raising `e`; the word shown in `instr_out` stays. -/
def Raises (s : State) (o : Host.Outcome State Fault Refusal) (e : Exception) : Prop :=
  ∃ t, o = .next t ∧ t.instrOut = s.instrOut ∧ Traps s t e

/-! ### Memory -/

/-- The little-endian number in the `n` bytes from `a` (R63). -/
def bytesValue (s : State) (a n : Nat) : Nat := ∑ k ∈ Finset.range n, (s.byte (a + k)).toNat * 2 ^ (8 * k)

/-- From `s` to `t`: byte `k` of `v` is at `a + k` for every `k < n`, and every other byte is as before (R64). -/
def StoresBytes (s t : State) (a n : Nat) (v : Word) : Prop :=
  (∀ k < n, (t.byte (a + k)).toNat = v.toNat / 2 ^ (8 * k) % 2 ^ 8) ∧ (∀ b, b < a ∨ a + n ≤ b → t.byte b = s.byte b)

/-- A region holds the address. -/
def InRegion (r : Region) (a : Nat) : Prop := r.base ≤ a ∧ a < r.base + r.length

/-- A legal `REGIONS` (R61): every region has a byte and ends at or below 2^64, and no two listed regions hold one address. -/
def LegalMap (rs : List Region) : Prop :=
  (∀ r ∈ rs, 1 ≤ r.length ∧ r.base + r.length ≤ 2 ^ 64) ∧ rs.Pairwise fun r q => ∀ a, ¬(InRegion r a ∧ InRegion q a)

/-- The whole access lies in one region (R65). -/
def InOneRegion (rs : List Region) (pa n : Nat) : Prop := ∃ r ∈ rs, r.base ≤ pa ∧ pa + n ≤ r.base + r.length

/-! ### Loads and stores -/

/-- The rule of a load of `w` bytes with sign extension or not (R182, R92): the value of the bytes at the translated address goes to
`rd`, or a page fault, an access fault or the refusal of `NotImplemented`, tested in this order. -/
def LoadRule (i : Instr) (s : State) (rd : Reg) (ea : Word) (w : Width) (signed : Bool) : Prop :=
  (s.translate ea = .unsupported → exec i s = .refused .translationNotImplemented) ∧
  (s.translate ea = .fail → Raises s (exec i s) (.loadPageFault ea)) ∧
  (∀ pa wr x, s.translate ea = .ok pa false wr x → Raises s (exec i s) (.loadPageFault ea)) ∧
  (∀ pa wr x, s.translate ea = .ok pa true wr x → backed s.params.regions pa.toNat w.bytes = false →
    Raises s (exec i s) (.loadAccessFault ea)) ∧
  (∀ pa wr x, s.translate ea = .ok pa true wr x → backed s.params.regions pa.toNat w.bytes = true →
    Computes i s rd (BitVec.ofInt 64 (if signed then Int.bmod (bytesValue s pa.toNat w.bytes) (2 ^ (8 * w.bytes))
      else bytesValue s pa.toNat w.bytes)))

/-- The rule of a store of `w` bytes of `v` (R182, R93): the bytes go to the translated address, or a page fault, an access fault or
the refusal of `NotImplemented`, tested in this order. -/
def StoreRule (i : Instr) (s : State) (ea : Word) (w : Width) (v : Word) : Prop :=
  (s.translate ea = .unsupported → exec i s = .refused .translationNotImplemented) ∧
  (s.translate ea = .fail → Raises s (exec i s) (.storePageFault ea)) ∧
  (∀ pa r x, s.translate ea = .ok pa r false x → Raises s (exec i s) (.storePageFault ea)) ∧
  (∀ pa r x, s.translate ea = .ok pa r true x → backed s.params.regions pa.toNat w.bytes = false →
    Raises s (exec i s) (.storeAccessFault ea)) ∧
  (∀ pa r x, s.translate ea = .ok pa r true x → backed s.params.regions pa.toNat w.bytes = true →
    ∃ t, exec i s = .next t ∧ t.pc = nextPc s ∧ StoresBytes s t pa.toNat w.bytes v ∧ SameRegs s t ∧ SameCsrs s t ∧ SameRest s t)

/-! ### CSR instructions -/

/-- `i` runs to a next state in which CSR `a` holds `new` unless `a` is slot 0, `x[rd]` the old value of the CSR unless `rd` is `x0`,
`pc` is advanced by 4, and nothing else changes (R244). -/
def UpdatesCsr (i : Instr) (s : State) (rd : Reg) (a : CsrAddr) (new : Word) : Prop :=
  ∃ t, exec i s = .next t ∧ t.pc = nextPc s ∧ (∀ r, t.x r = if r = rd ∧ r ≠ 0#5 then s.csr a else s.x r) ∧
    (∀ b, t.csr b = if b = a ∧ b ≠ 0#12 then new else s.csr b) ∧ SameMem s t ∧ SameRest s t

/-! ### The walk as a relation (R83 to R87) -/

/-- The PPN of a page-table entry, bits 53:10 (R84). -/
def ppnOf (pte : Word) : Nat := pte.toNat / 2 ^ 10 % 2 ^ 44

/-- The physical address of the entry for level `i` in the table of page `ppn`: `ppn * 4096 + VPN[i] * 8` (R83, R85). -/
def entryAddress (ppn : Nat) (va : Word) (i : Nat) : Word :=
  BitVec.ofNat 64 (ppn * 4096 + va.toNat / 2 ^ (12 + 9 * i) % 512 * 8)

/-- V is set. -/
def PteValid (pte : Word) : Prop := pte.getLsbD 0 = true

/-- R, W or X is set. -/
def PteLeaf (pte : Word) : Prop := pte.getLsbD 1 = true ∨ pte.getLsbD 2 = true ∨ pte.getLsbD 3 = true

/-- A walk of `va` over `n` levels from the table of page `ppn` ends in the valid leaf entry `leaf`: the entry is one, or it is a
valid pointer and the walk over the levels below from its page ends there (R85). -/
inductive WalksTo (s : State) (va : Word) : Nat → Nat → Word → Prop
  | leaf {n ppn : Nat} {pte : Word} (read : s.physRead (entryAddress ppn va n) .double = some pte) (valid : PteValid pte)
      (isLeaf : PteLeaf pte) : WalksTo s va (n + 1) ppn pte
  | pointer {n ppn : Nat} {pte leaf : Word} (read : s.physRead (entryAddress ppn va n) .double = some pte) (valid : PteValid pte)
      (notLeaf : ¬PteLeaf pte) (below : WalksTo s va n (ppnOf pte) leaf) : WalksTo s va (n + 1) ppn leaf

/-- The number of levels of a translated mode (R81). -/
def levelsOf : TransMode → Option Nat
  | .bare => none
  | .sv39 => some 3
  | .sv48 => some 4
  | .sv57 => some 5

/-- The `satp.MODE` number of a mode (R81). -/
def modeField : TransMode → Nat
  | .bare => 0
  | .sv39 => 8
  | .sv48 => 9
  | .sv57 => 10

/-- `satp` names the mode, and the mode is in `SATP_MODES` (R81). -/
def InMode (s : State) (m : TransMode) : Prop := (s.csr 0x180#12).toNat / 2 ^ 60 = modeField m ∧ m ∈ s.params.satpModes

/-- The word is a load or a store (R125). -/
def IsLoadOrStore (w : InstrWord) : Prop := opcodeOf w = 0b0000011#7 ∨ opcodeOf w = 0b0100011#7

/-- The word is a CSR instruction: SYSTEM with a `funct3` other than 000 and 100 (R126). -/
def IsCsrWord (w : InstrWord) : Prop := opcodeOf w = 0b1110011#7 ∧ funct3Of w ≠ 0b000#3 ∧ funct3Of w ≠ 0b100#3

/-- The number of bits `hi` down to `lo` of an instruction word (R13). -/
def bitsOf (w : InstrWord) (hi lo : Nat) : Int := (w.toNat / 2 ^ lo % 2 ^ (hi + 1 - lo) : Nat)

/-! ### A safe run -/

/-- No step from `s` is refused: the map is legal and `satp` names an implemented translation mode. -/
def State.Ready (s : State) : Prop := LegalMap s.params.regions ∧ ∃ m, InMode s m

/-- From `s`, `u` is the state in which the fetched word `w` executes: the outputs are those of R260 and nothing else changes. -/
def StartsWord (s u : State) (w : InstrWord) : Prop :=
  u.pc = s.pc ∧ SameRegs s u ∧ SameCsrs s u ∧ SameMem s u ∧ u.priv = s.priv ∧ u.params = s.params ∧
  u.faultOut = none ∧ u.debugTrap = false ∧ u.instrOut = w

end Sys2Proof.Machine
end

