-- ==== Sys2Proof/Certificates/Slice0/Obligations.lean ====
section
/-! DEFINITION. The statements for the provers. Each docstring names the rules of spec/ that the statement formalises, or says that it is
derived. Statements about one instruction speak of `exec` and say the whole next state; `StepRunsDecodedInstruction` carries them to
`step`. Results are written as exact integers narrowed at the end. -/

open Sys2Proof Sys2Proof.Machine

/-! ### Decoding -/

/-- Words written out from the encodings of files 40_ to 46_ decode to the instructions they stand for, one or more for each family. -/
def Obligations.WordsDecodeAsSpecified : Prop :=
  decode 0x1BF520B7#32 = .ok (.lui 1#5 0x1BF52#20) ∧
  decode 0x00001297#32 = .ok (.auipc 5#5 1#20) ∧
  decode 0xFE9FF06F#32 = .ok (.jal 0#5 (BitVec.ofInt 21 (-24))) ∧
  decode 0xFFD280E7#32 = .ok (.jalr 1#5 5#5 (BitVec.ofInt 12 (-3)) 0#3) ∧
  decode 0x8020C063#32 = .ok (.blt 1#5 2#5 (BitVec.ofInt 13 (-4096))) ∧
  decode 0xFF82B303#32 = .ok (.ld 6#5 5#5 (BitVec.ofInt 12 (-8))) ∧
  decode 0xFE62BC23#32 = .ok (.sd 5#5 6#5 (BitVec.ofInt 12 (-8))) ∧
  decode 0x77F08093#32 = .ok (.addi 1#5 1#5 1919#12) ∧
  decode 0x43F0D113#32 = .ok (.srai 2#5 1#5 63#6) ∧
  decode 0x4040D11B#32 = .ok (.sraiw 2#5 1#5 4#5) ∧
  decode 0x402081B3#32 = .ok (.sub 3#5 1#5 2#5) ∧
  decode 0x4020D1BB#32 = .ok (.sraw 3#5 1#5 2#5) ∧
  decode 0x8330000F#32 = .ok (.fence 8#4 3#4 3#4 0#5 0#3 0#5) ∧
  decode 0x30200073#32 = .ok .mret ∧
  decode 0x305312F3#32 = .ok (.csrrw 5#5 0x305#12 6#5) ∧
  decode 0x340FD2F3#32 = .ok (.csrrwi 5#5 0x340#12 31#5)

/-- R118 to R123: the immediates and the other operand fields, as sums over the bits of the word. -/
def Obligations.OperandFields : Prop :=
  ∀ w : InstrWord,
    (imm12 (immIOf w)).toInt = bitsOf w 30 20 - 2 ^ 11 * bitsOf w 31 31 ∧
    (imm12 (immSOf w)).toInt = 2 ^ 5 * bitsOf w 30 25 + bitsOf w 11 7 - 2 ^ 11 * bitsOf w 31 31 ∧
    (immB (immBOf w)).toInt =
      2 ^ 11 * bitsOf w 7 7 + 2 ^ 5 * bitsOf w 30 25 + 2 * bitsOf w 11 8 - 2 ^ 12 * bitsOf w 31 31 ∧
    (immU (immUOf w)).toInt = 2 ^ 12 * bitsOf w 30 12 - 2 ^ 31 * bitsOf w 31 31 ∧
    (immJ (immJOf w)).toInt =
      2 ^ 12 * bitsOf w 19 12 + 2 ^ 11 * bitsOf w 20 20 + 2 * bitsOf w 30 21 - 2 ^ 20 * bitsOf w 31 31 ∧
    ((rdOf w).toNat : Int) = bitsOf w 11 7 ∧ ((rs1Of w).toNat : Int) = bitsOf w 19 15 ∧
    ((rs2Of w).toNat : Int) = bitsOf w 24 20 ∧ ((shamt6Of w).toNat : Int) = bitsOf w 25 20 ∧
    ((funct6Of w).toNat : Int) = bitsOf w 31 26 ∧ ((funct7Of w).toNat : Int) = bitsOf w 31 25 ∧
    ((immIOf w).toNat : Int) = bitsOf w 31 20 ∧ ((uimmWord (rs1Of w)).toNat : Int) = bitsOf w 19 15

/-- Derived (R111 to R116, R125 to R127): every well-formed instruction is decoded from the word the encoder writes for it, the ignored
fields that FENCE and JALR keep (log 12, DESIGN CHOICE) among its operands. -/
def Obligations.DecodeOfEncode : Prop :=
  ∀ i : Instr, i.wellFormed = true → decode (encode i) = .ok i

/-- Derived (R117, R127): every word that decodes, decodes to a well-formed instruction whose encoding is the word, so that no two words
decode to one instruction. For FENCE and JALR this is the model's choice (log 12, DESIGN CHOICE): their constructors keep the fields
that the hardware ignores, while by R130 all the FENCE words, and the JALR words that differ in `funct3` alone, do the same. -/
def Obligations.EncodeOfDecode : Prop :=
  ∀ (w : InstrWord) (i : Instr), decode w = .ok i → i.wellFormed = true ∧ encode i = w

/-- R127: a row of the opcode table selects a word exactly where the word decodes to that row's instruction; a word that selects no
row is illegal; no word selects two rows. -/
def Obligations.OpcodeTableSelects : Prop :=
  (∀ w : InstrWord, ∀ r ∈ opcodeRows, r.selects w = true ↔ ∃ i, decode w = .ok i ∧ mnemonicOf i = r.mnemonic) ∧
  (∀ w : InstrWord, (∀ r ∈ opcodeRows, r.selects w = false) ↔ ∃ e, decode w = .error e) ∧
  (∀ w : InstrWord, ∀ r ∈ opcodeRows, ∀ q ∈ opcodeRows, r.selects w = true → q.selects w = true → r = q)

/-- R128, R225, R245: the words that are no instruction, and what a step at an illegal word does. -/
def Obligations.IllegalWordsTrap : Prop :=
  (∀ w : InstrWord, w.toNat % 4 ≠ 3 → ∃ e, decode w = .error e) ∧
  (∀ w : InstrWord, opcodeOf w ∈ [0b0000000#7, 0b1111111#7, 0b0000111#7, 0b0100111#7, 0b0101111#7, 0b1000011#7, 0b1000111#7,
      0b1001011#7, 0b1001111#7, 0b1010011#7, 0b1010111#7, 0b0001011#7, 0b0101011#7, 0b1011011#7, 0b1111011#7] →
    ∃ e, decode w = .error e) ∧
  (∀ w : InstrWord, opcodeOf w = 0b0110011#7 ∨ opcodeOf w = 0b0111011#7 → funct7Of w ≠ 0b0000000#7 → funct7Of w ≠ 0b0100000#7 →
    ∃ e, decode w = .error e) ∧
  (∀ w : InstrWord, opcodeOf w = 0b1110011#7 → funct3Of w = 0b000#3 → w ≠ 0x00000073#32 → w ≠ 0x00100073#32 →
    w ≠ 0x30200073#32 → ∃ e, decode w = .error e) ∧
  (∀ w : InstrWord, (∀ r ∈ opcodeRows, r.selects w = false) → ∃ e, decode w = .error e) ∧
  (∀ (s : State) (w : InstrWord) (e : DecodeError), LegalMap s.params.regions → s.fetch = some w → decode w = .error e →
    ∃ t, step s = .next t ∧ t.instrOut = w ∧ Traps s t .illegalInstruction)

/-! ### Registers, CSRs and reset -/

/-- R21: the register file's law, and `x0` stored as 0 at all times. -/
def Obligations.ZeroRegisterLaw : Prop :=
  (∀ (s : State) (i r : Reg) (v : Word), (s.setX i v).x r = if r = i ∧ i ≠ 0#5 then v else s.x r) ∧
  (∀ s : State, s.x 0#5 = 0#64) ∧
  (∀ s t : State, s.gpr[0] = 0#64 → step s = .next t → t.gpr[0] = 0#64)

/-- R31: the CSR write path takes all 64 bits for every slot but slot 0, which never changes; no other slot is touched. -/
def Obligations.CsrWriteLaw : Prop :=
  (∀ (s : State) (a b : CsrAddr) (v : Word), (s.setCsr a v).csr b = if b = a ∧ a ≠ 0#12 then v else s.csr b) ∧
  (∀ s t : State, step s = .next t → t.csr 0#12 = s.csr 0#12)

/-- R48, R300: what reset leaves, for a reset applied to any state and for the state after reset with the default parameters: `pc`, the
registers, the mode and every CSR; a reset leaves memory and the parameters; the defaults of the parameters in these values. -/
def Obligations.ResetLeavesSpecState : Prop :=
  (∀ t : State, ((∃ s : State, t = s.applyReset) ∨ t = State.reset) →
    t.pc = t.params.resetPc ∧ (∀ r, t.x r = 0#64) ∧ t.priv = .machine ∧
    (∀ a, t.csr a = if a = 0x301#12 then t.params.misaReset else if a = 0xF14#12 then t.params.hartId else 0#64)) ∧
  (∀ s : State, SameMem s s.applyReset ∧ s.applyReset.params = s.params) ∧
  State.reset.params.resetPc = 0x0000000080000000#64 ∧ State.reset.params.misaReset = 0x8000000000140100#64 ∧
  State.reset.params.hartId = 0#64

/-! ### The fabric -/

/-- R62: in a legal map the lookup answers the region of the greatest base not above the address, where the whole access fits. -/
def Obligations.LookupRule : Prop :=
  ∀ (rs : List Region) (pa n : Nat) (r : Region), LegalMap rs →
    (lookup rs pa n = some r ↔
      r ∈ rs ∧ r.base ≤ pa ∧ (∀ q ∈ rs, q.base ≤ pa → q.base ≤ r.base) ∧ pa + n ≤ r.base + r.length)

/-- R63: a physical read answers no mapping, or the little-endian value of its bytes. -/
def Obligations.PhysReadLittleEndian : Prop :=
  ∀ (s : State) (pa : Word) (w : Width),
    (lookup s.params.regions pa.toNat w.bytes = none → s.physRead pa w = none) ∧
    (∀ r, lookup s.params.regions pa.toNat w.bytes = some r →
      ∃ v, s.physRead pa w = some v ∧ v.toNat = bytesValue s pa.toNat w.bytes)

/-- R64: a physical write answers no mapping, or stores the low bytes of the value and changes nothing else. -/
def Obligations.PhysWriteStoresBytes : Prop :=
  ∀ (s : State) (pa : Word) (w : Width) (v : Word),
    (lookup s.params.regions pa.toNat w.bytes = none → s.physWrite pa w v = none) ∧
    (∀ r, lookup s.params.regions pa.toNat w.bytes = some r →
      ∃ t, s.physWrite pa w v = some t ∧ StoresBytes s t pa.toNat w.bytes v ∧ t.pc = s.pc ∧ SameRegs s t ∧ SameCsrs s t ∧
        SameRest s t)

/-- R65, R66: an access succeeds exactly where one region holds all of it, adjacent regions or not, and never past the top of the
address space. -/
def Obligations.AccessNeedsOneRegion : Prop :=
  ∀ (s : State) (pa : Word) (w : Width) (v : Word), LegalMap s.params.regions →
    (s.physRead pa w ≠ none ↔ InOneRegion s.params.regions pa.toNat w.bytes) ∧
    (s.physWrite pa w v ≠ none ↔ InOneRegion s.params.regions pa.toNat w.bytes) ∧
    (2 ^ 64 < pa.toNat + w.bytes → s.physRead pa w = none ∧ s.physWrite pa w v = none)

/-- R69: narrow reads and the fetch see the bytes of a wide write, lowest address first. -/
def Obligations.NarrowReadsSeeWideWrite : Prop :=
  ∀ (s t : State) (pa v : Word), LegalMap s.params.regions → s.physWrite pa .double v = some t →
    (∀ k < 8, t.physRead (pa + BitVec.ofNat 64 k) .byte = some ((v.extractLsb' (8 * k) 8).setWidth 64)) ∧
    t.physRead (pa + 4#64) .word = some ((v.extractLsb' 32 32).setWidth 64) ∧
    ({ t with pc := pa } : State).fetch = some (v.extractLsb' 0 32)

/-- Derived (R302, R64): the loader stores the image's bytes in order and nothing else. That it may succeed on an image that runs on into
an adjacent region is the model's choice (log 18, DESIGN CHOICE); of an image that passes the top of the address space nothing is said. -/
def Obligations.LoadImageStoresImage : Prop :=
  ∀ (s t : State) (pa : Word) (image : List Byte), pa.toNat + image.length ≤ 2 ^ 64 → s.loadImage pa image = some t →
    (∀ k b, image[k]? = some b → t.byte (pa.toNat + k) = b) ∧
    (∀ a, a < pa.toNat ∨ pa.toNat + image.length ≤ a → t.byte a = s.byte a) ∧
    t.pc = s.pc ∧ SameRegs s t ∧ SameCsrs s t ∧ SameRest s t

/-- Derived (log 10): a word placed where the machine fetches is the word fetched, and decodes as the table's reader says. -/
def Obligations.PlacedWordIsFetched : Prop :=
  ∀ (s : State) (nbits w : Nat), LegalMap s.params.regions → InOneRegion s.params.regions s.pc.toNat 4 →
    (s.withFetchWord nbits w).fetch = some (BitVec.ofNat 32 (w % 2 ^ nbits)) ∧
    (∀ i, decodeTableWord nbits w = some i ↔ decode (BitVec.ofNat 32 (w % 2 ^ nbits)) = .ok i)

/-! ### Translation -/

/-- R82: Bare is the identity with full permissions. -/
def Obligations.BareIsIdentity : Prop :=
  ∀ (s : State) (va : Word), InMode s .bare → s.translate va = .ok va true true true

/-- R81, R85: in a translated mode the translation succeeds exactly where the walk ends in a valid leaf, with that leaf's page and
permissions, and fails otherwise. -/
def Obligations.TranslateMeetsWalk : Prop :=
  ∀ (s : State) (va : Word) (m : TransMode) (n : Nat), InMode s m → levelsOf m = some n →
    (∀ pa r w x, s.translate va = .ok pa r w x ↔
      ∃ leaf, WalksTo s va n ((s.csr 0x180#12).toNat % 2 ^ 44) leaf ∧
        pa = BitVec.ofNat 64 (ppnOf leaf * 2 ^ 12 + va.toNat % 2 ^ 12) ∧
        r = leaf.getLsbD 1 ∧ w = leaf.getLsbD 2 ∧ x = leaf.getLsbD 3) ∧
    (s.translate va = .fail ↔ ¬∃ leaf, WalksTo s va n ((s.csr 0x180#12).toNat % 2 ^ 44) leaf)

/-- R80: the translation has no input but `satp` and the page tables in memory (and the parameters). -/
def Obligations.TranslateReadsOnlySatpAndMemory : Prop :=
  ∀ (s t : State) (va : Word), t.params = s.params → t.csr 0x180#12 = s.csr 0x180#12 → SameMem s t →
    t.translate va = s.translate va

/-! ### Instructions without a memory access -/

/-- R140, R141: LUI and AUIPC. -/
def Obligations.UpperImmediateRules : Prop :=
  ∀ (rd : Reg) (imm20 : BitVec 20) (s : State),
    (decode (encU imm20 rd 0b0110111#7) = .ok (.lui rd imm20) ∧
      Computes (.lui rd imm20) s rd (BitVec.ofInt 64 (imm20.toInt * 2 ^ 12))) ∧
    (decode (encU imm20 rd 0b0010111#7) = .ok (.auipc rd imm20) ∧
      Computes (.auipc rd imm20) s rd (BitVec.ofInt 64 (s.pc.toInt + imm20.toInt * 2 ^ 12)))

/-- R150, R151: JAL and JALR. The encoding of a JAL has room for even offsets only; JALR's `funct3` is ignored, and bit 0 of its
target is cleared. The base register of JALR is read before `rd` is written. -/
def Obligations.JumpRules : Prop :=
  (∀ (rd : Reg) (off : BitVec 21), off.toNat % 2 = 0 → decode (encJ off rd 0b1101111#7) = .ok (.jal rd off)) ∧
  (∀ (rd : Reg) (off : BitVec 21) (s : State),
    ∃ t, exec (.jal rd off) s = .next t ∧ WritesReg s t rd (nextPc s) (BitVec.ofInt 64 (s.pc.toInt + off.toInt))) ∧
  (∀ (rd rs1 : Reg) (imm : BitVec 12) (f3 : BitVec 3) (s : State),
    decode (encI imm rs1 f3 rd 0b1100111#7) = .ok (.jalr rd rs1 imm f3) ∧
    ∃ t, exec (.jalr rd rs1 imm f3) s = .next t ∧
      WritesReg s t rd (nextPc s) (BitVec.ofNat 64 ((BitVec.ofInt 64 ((s.x rs1).toInt + imm.toInt)).toNat / 2 * 2)))

/-- R152 to R157: the six branches. -/
def Obligations.BranchRules : Prop :=
  (∀ (rs1 rs2 : Reg) (off : BitVec 13), off.toNat % 2 = 0 →
    decode (encB off rs2 rs1 0b000#3 0b1100011#7) = .ok (.beq rs1 rs2 off) ∧
    decode (encB off rs2 rs1 0b001#3 0b1100011#7) = .ok (.bne rs1 rs2 off) ∧
    decode (encB off rs2 rs1 0b100#3 0b1100011#7) = .ok (.blt rs1 rs2 off) ∧
    decode (encB off rs2 rs1 0b101#3 0b1100011#7) = .ok (.bge rs1 rs2 off) ∧
    decode (encB off rs2 rs1 0b110#3 0b1100011#7) = .ok (.bltu rs1 rs2 off) ∧
    decode (encB off rs2 rs1 0b111#3 0b1100011#7) = .ok (.bgeu rs1 rs2 off)) ∧
  (∀ (rs1 rs2 : Reg) (off : BitVec 13) (s : State),
    (∃ t, exec (.beq rs1 rs2 off) s = .next t ∧
      OnlyPc s t (if (s.x rs1).toNat = (s.x rs2).toNat then BitVec.ofInt 64 (s.pc.toInt + off.toInt) else nextPc s)) ∧
    (∃ t, exec (.bne rs1 rs2 off) s = .next t ∧
      OnlyPc s t (if (s.x rs1).toNat ≠ (s.x rs2).toNat then BitVec.ofInt 64 (s.pc.toInt + off.toInt) else nextPc s)) ∧
    (∃ t, exec (.blt rs1 rs2 off) s = .next t ∧
      OnlyPc s t (if (s.x rs1).toInt < (s.x rs2).toInt then BitVec.ofInt 64 (s.pc.toInt + off.toInt) else nextPc s)) ∧
    (∃ t, exec (.bge rs1 rs2 off) s = .next t ∧
      OnlyPc s t (if (s.x rs1).toInt ≥ (s.x rs2).toInt then BitVec.ofInt 64 (s.pc.toInt + off.toInt) else nextPc s)) ∧
    (∃ t, exec (.bltu rs1 rs2 off) s = .next t ∧
      OnlyPc s t (if (s.x rs1).toNat < (s.x rs2).toNat then BitVec.ofInt 64 (s.pc.toInt + off.toInt) else nextPc s)) ∧
    (∃ t, exec (.bgeu rs1 rs2 off) s = .next t ∧
      OnlyPc s t (if (s.x rs1).toNat ≥ (s.x rs2).toNat then BitVec.ofInt 64 (s.pc.toInt + off.toInt) else nextPc s)))

/-- R190 to R198: OP-IMM; the shift amounts are 0 to 63. -/
def Obligations.OpImmRules : Prop :=
  (∀ (rd rs1 : Reg) (imm : BitVec 12) (s : State),
    (decode (encI imm rs1 0b000#3 rd 0b0010011#7) = .ok (.addi rd rs1 imm) ∧
      Computes (.addi rd rs1 imm) s rd (BitVec.ofInt 64 ((s.x rs1).toInt + imm.toInt))) ∧
    (decode (encI imm rs1 0b010#3 rd 0b0010011#7) = .ok (.slti rd rs1 imm) ∧
      Computes (.slti rd rs1 imm) s rd (if (s.x rs1).toInt < imm.toInt then 1#64 else 0#64)) ∧
    (decode (encI imm rs1 0b011#3 rd 0b0010011#7) = .ok (.sltiu rd rs1 imm) ∧
      Computes (.sltiu rd rs1 imm) s rd (if ((s.x rs1).toNat : Int) < imm.toInt % 2 ^ 64 then 1#64 else 0#64)) ∧
    (decode (encI imm rs1 0b100#3 rd 0b0010011#7) = .ok (.xori rd rs1 imm) ∧
      Computes (.xori rd rs1 imm) s rd (s.x rs1 ^^^ BitVec.ofInt 64 imm.toInt)) ∧
    (decode (encI imm rs1 0b110#3 rd 0b0010011#7) = .ok (.ori rd rs1 imm) ∧
      Computes (.ori rd rs1 imm) s rd (s.x rs1 ||| BitVec.ofInt 64 imm.toInt)) ∧
    (decode (encI imm rs1 0b111#3 rd 0b0010011#7) = .ok (.andi rd rs1 imm) ∧
      Computes (.andi rd rs1 imm) s rd (s.x rs1 &&& BitVec.ofInt 64 imm.toInt))) ∧
  (∀ (rd rs1 : Reg) (shamt : BitVec 6) (s : State),
    (decode (encShift6 0b000000#6 shamt rs1 0b001#3 rd 0b0010011#7) = .ok (.slli rd rs1 shamt) ∧
      Computes (.slli rd rs1 shamt) s rd (BitVec.ofNat 64 ((s.x rs1).toNat * 2 ^ shamt.toNat))) ∧
    (decode (encShift6 0b000000#6 shamt rs1 0b101#3 rd 0b0010011#7) = .ok (.srli rd rs1 shamt) ∧
      Computes (.srli rd rs1 shamt) s rd (BitVec.ofNat 64 ((s.x rs1).toNat / 2 ^ shamt.toNat))) ∧
    (decode (encShift6 0b010000#6 shamt rs1 0b101#3 rd 0b0010011#7) = .ok (.srai rd rs1 shamt) ∧
      Computes (.srai rd rs1 shamt) s rd (BitVec.ofInt 64 ((s.x rs1).toInt / 2 ^ shamt.toNat)))) ∧
  (∀ w : InstrWord, opcodeOf w = 0b0010011#7 → funct3Of w = 0b001#3 → funct6Of w ≠ 0b000000#6 → ∃ e, decode w = .error e) ∧
  (∀ w : InstrWord, opcodeOf w = 0b0010011#7 → funct3Of w = 0b101#3 → funct6Of w ≠ 0b000000#6 → funct6Of w ≠ 0b010000#6 →
    ∃ e, decode w = .error e)

/-- R199 to R202: OP-IMM-32; the shifts take amounts 0 to 31 and need all of `funct7`. -/
def Obligations.OpImm32Rules : Prop :=
  (∀ (rd rs1 : Reg) (imm : BitVec 12) (s : State),
    decode (encI imm rs1 0b000#3 rd 0b0011011#7) = .ok (.addiw rd rs1 imm) ∧
      Computes (.addiw rd rs1 imm) s rd (BitVec.ofInt 64 (Int.bmod ((s.x rs1).toInt + imm.toInt) (2 ^ 32)))) ∧
  (∀ (rd rs1 : Reg) (shamt : BitVec 5) (s : State),
    (decode (encR 0b0000000#7 shamt rs1 0b001#3 rd 0b0011011#7) = .ok (.slliw rd rs1 shamt) ∧
      Computes (.slliw rd rs1 shamt) s rd (BitVec.ofInt 64 (Int.bmod ((s.x rs1).toNat * 2 ^ shamt.toNat) (2 ^ 32)))) ∧
    (decode (encR 0b0000000#7 shamt rs1 0b101#3 rd 0b0011011#7) = .ok (.srliw rd rs1 shamt) ∧
      Computes (.srliw rd rs1 shamt) s rd
        (BitVec.ofInt 64 (Int.bmod ((s.x rs1).toNat % 2 ^ 32 / 2 ^ shamt.toNat : Nat) (2 ^ 32)))) ∧
    (decode (encR 0b0100000#7 shamt rs1 0b101#3 rd 0b0011011#7) = .ok (.sraiw rd rs1 shamt) ∧
      Computes (.sraiw rd rs1 shamt) s rd (BitVec.ofInt 64 (Int.bmod (s.x rs1).toNat (2 ^ 32) / 2 ^ shamt.toNat)))) ∧
  (∀ w : InstrWord, opcodeOf w = 0b0011011#7 → funct3Of w = 0b001#3 → funct7Of w = 0b0000001#7 → ∃ e, decode w = .error e)

/-- R210 to R219: OP; the low six bits of `x[rs2]` count in the shifts. -/
def Obligations.OpRules : Prop :=
  ∀ (rd rs1 rs2 : Reg) (s : State),
    (decode (encR 0b0000000#7 rs2 rs1 0b000#3 rd 0b0110011#7) = .ok (.add rd rs1 rs2) ∧
      Computes (.add rd rs1 rs2) s rd (BitVec.ofInt 64 ((s.x rs1).toInt + (s.x rs2).toInt))) ∧
    (decode (encR 0b0100000#7 rs2 rs1 0b000#3 rd 0b0110011#7) = .ok (.sub rd rs1 rs2) ∧
      Computes (.sub rd rs1 rs2) s rd (BitVec.ofInt 64 ((s.x rs1).toInt - (s.x rs2).toInt))) ∧
    (decode (encR 0b0000000#7 rs2 rs1 0b001#3 rd 0b0110011#7) = .ok (.sll rd rs1 rs2) ∧
      Computes (.sll rd rs1 rs2) s rd (BitVec.ofNat 64 ((s.x rs1).toNat * 2 ^ ((s.x rs2).toNat % 64)))) ∧
    (decode (encR 0b0000000#7 rs2 rs1 0b010#3 rd 0b0110011#7) = .ok (.slt rd rs1 rs2) ∧
      Computes (.slt rd rs1 rs2) s rd (if (s.x rs1).toInt < (s.x rs2).toInt then 1#64 else 0#64)) ∧
    (decode (encR 0b0000000#7 rs2 rs1 0b011#3 rd 0b0110011#7) = .ok (.sltu rd rs1 rs2) ∧
      Computes (.sltu rd rs1 rs2) s rd (if (s.x rs1).toNat < (s.x rs2).toNat then 1#64 else 0#64)) ∧
    (decode (encR 0b0000000#7 rs2 rs1 0b100#3 rd 0b0110011#7) = .ok (.xor rd rs1 rs2) ∧
      Computes (.xor rd rs1 rs2) s rd (s.x rs1 ^^^ s.x rs2)) ∧
    (decode (encR 0b0000000#7 rs2 rs1 0b101#3 rd 0b0110011#7) = .ok (.srl rd rs1 rs2) ∧
      Computes (.srl rd rs1 rs2) s rd (BitVec.ofNat 64 ((s.x rs1).toNat / 2 ^ ((s.x rs2).toNat % 64)))) ∧
    (decode (encR 0b0100000#7 rs2 rs1 0b101#3 rd 0b0110011#7) = .ok (.sra rd rs1 rs2) ∧
      Computes (.sra rd rs1 rs2) s rd (BitVec.ofInt 64 ((s.x rs1).toInt / 2 ^ ((s.x rs2).toNat % 64)))) ∧
    (decode (encR 0b0000000#7 rs2 rs1 0b110#3 rd 0b0110011#7) = .ok (.or rd rs1 rs2) ∧
      Computes (.or rd rs1 rs2) s rd (s.x rs1 ||| s.x rs2)) ∧
    (decode (encR 0b0000000#7 rs2 rs1 0b111#3 rd 0b0110011#7) = .ok (.and rd rs1 rs2) ∧
      Computes (.and rd rs1 rs2) s rd (s.x rs1 &&& s.x rs2))

/-- R220 to R224: OP-32; the low five bits of `x[rs2]` count in the shifts. -/
def Obligations.Op32Rules : Prop :=
  ∀ (rd rs1 rs2 : Reg) (s : State),
    (decode (encR 0b0000000#7 rs2 rs1 0b000#3 rd 0b0111011#7) = .ok (.addw rd rs1 rs2) ∧
      Computes (.addw rd rs1 rs2) s rd (BitVec.ofInt 64 (Int.bmod ((s.x rs1).toInt + (s.x rs2).toInt) (2 ^ 32)))) ∧
    (decode (encR 0b0100000#7 rs2 rs1 0b000#3 rd 0b0111011#7) = .ok (.subw rd rs1 rs2) ∧
      Computes (.subw rd rs1 rs2) s rd (BitVec.ofInt 64 (Int.bmod ((s.x rs1).toInt - (s.x rs2).toInt) (2 ^ 32)))) ∧
    (decode (encR 0b0000000#7 rs2 rs1 0b001#3 rd 0b0111011#7) = .ok (.sllw rd rs1 rs2) ∧
      Computes (.sllw rd rs1 rs2) s rd
        (BitVec.ofInt 64 (Int.bmod ((s.x rs1).toNat * 2 ^ ((s.x rs2).toNat % 32)) (2 ^ 32)))) ∧
    (decode (encR 0b0000000#7 rs2 rs1 0b101#3 rd 0b0111011#7) = .ok (.srlw rd rs1 rs2) ∧
      Computes (.srlw rd rs1 rs2) s rd
        (BitVec.ofInt 64 (Int.bmod ((s.x rs1).toNat % 2 ^ 32 / 2 ^ ((s.x rs2).toNat % 32) : Nat) (2 ^ 32)))) ∧
    (decode (encR 0b0100000#7 rs2 rs1 0b101#3 rd 0b0111011#7) = .ok (.sraw rd rs1 rs2) ∧
      Computes (.sraw rd rs1 rs2) s rd (BitVec.ofInt 64 (Int.bmod (s.x rs1).toNat (2 ^ 32) / 2 ^ ((s.x rs2).toNat % 32))))

/-- R230: every word of MISC-MEM is FENCE, whatever its fields, and FENCE only advances `pc`. -/
def Obligations.FenceRule : Prop :=
  (∀ w : InstrWord, opcodeOf w = 0b0001111#7 → ∃ fm pred succ rs1 f3 rd, decode w = .ok (.fence fm pred succ rs1 f3 rd)) ∧
  (∀ (fm pred succ : BitVec 4) (rs1 : Reg) (f3 : BitVec 3) (rd : Reg) (s : State),
    ∃ t, exec (.fence fm pred succ rs1 f3 rd) s = .next t ∧ OnlyPc s t (nextPc s))

/-- Derived (R129): an instruction of LUI, AUIPC, OP-IMM, OP-IMM-32, OP or OP-32 with `rd = x0` only advances `pc`. -/
def Obligations.HintsOnlyAdvancePc : Prop :=
  ∀ (i : Instr) (s : State), rdOf (encode i) = 0#5 →
    opcodeOf (encode i) ∈ [0b0110111#7, 0b0010111#7, 0b0010011#7, 0b0011011#7, 0b0110011#7, 0b0111011#7] →
    ∃ t, exec i s = .next t ∧ OnlyPc s t (nextPc s)

/-! ### Loads and stores -/

/-- R171 to R177, R92: the seven loads. -/
def Obligations.LoadRules : Prop :=
  ∀ (rd rs1 : Reg) (imm : BitVec 12) (s : State),
    let ea := BitVec.ofInt 64 ((s.x rs1).toInt + imm.toInt)
    (decode (encI imm rs1 0b000#3 rd 0b0000011#7) = .ok (.lb rd rs1 imm) ∧ LoadRule (.lb rd rs1 imm) s rd ea .byte true) ∧
    (decode (encI imm rs1 0b001#3 rd 0b0000011#7) = .ok (.lh rd rs1 imm) ∧ LoadRule (.lh rd rs1 imm) s rd ea .half true) ∧
    (decode (encI imm rs1 0b010#3 rd 0b0000011#7) = .ok (.lw rd rs1 imm) ∧ LoadRule (.lw rd rs1 imm) s rd ea .word true) ∧
    (decode (encI imm rs1 0b011#3 rd 0b0000011#7) = .ok (.ld rd rs1 imm) ∧ LoadRule (.ld rd rs1 imm) s rd ea .double false) ∧
    (decode (encI imm rs1 0b100#3 rd 0b0000011#7) = .ok (.lbu rd rs1 imm) ∧ LoadRule (.lbu rd rs1 imm) s rd ea .byte false) ∧
    (decode (encI imm rs1 0b101#3 rd 0b0000011#7) = .ok (.lhu rd rs1 imm) ∧ LoadRule (.lhu rd rs1 imm) s rd ea .half false) ∧
    (decode (encI imm rs1 0b110#3 rd 0b0000011#7) = .ok (.lwu rd rs1 imm) ∧ LoadRule (.lwu rd rs1 imm) s rd ea .word false)

/-- R178 to R181, R93: the four stores. -/
def Obligations.StoreRules : Prop :=
  ∀ (rs1 rs2 : Reg) (imm : BitVec 12) (s : State),
    let ea := BitVec.ofInt 64 ((s.x rs1).toInt + imm.toInt)
    (decode (encS imm rs2 rs1 0b000#3 0b0100011#7) = .ok (.sb rs1 rs2 imm) ∧ StoreRule (.sb rs1 rs2 imm) s ea .byte (s.x rs2)) ∧
    (decode (encS imm rs2 rs1 0b001#3 0b0100011#7) = .ok (.sh rs1 rs2 imm) ∧ StoreRule (.sh rs1 rs2 imm) s ea .half (s.x rs2)) ∧
    (decode (encS imm rs2 rs1 0b010#3 0b0100011#7) = .ok (.sw rs1 rs2 imm) ∧ StoreRule (.sw rs1 rs2 imm) s ea .word (s.x rs2)) ∧
    (decode (encS imm rs2 rs1 0b011#3 0b0100011#7) = .ok (.sd rs1 rs2 imm) ∧ StoreRule (.sd rs1 rs2 imm) s ea .double (s.x rs2))

/-- Derived (R95, R97, R170, R306): a doubleword stored in Bare mode into a region is loaded back from the same address by the next
load; a word stored is the word fetched next from the physical address it went to, with no fence. -/
def Obligations.StoresAreSeen : Prop :=
  (∀ (rd rs1 rs2 : Reg) (imm : BitVec 12) (s : State), LegalMap s.params.regions → InMode s .bare →
    InOneRegion s.params.regions (BitVec.ofInt 64 ((s.x rs1).toInt + imm.toInt)).toNat 8 →
    ∃ t u, exec (.sd rs1 rs2 imm) s = .next t ∧ exec (.ld rd rs1 imm) t = .next u ∧
      u.x rd = (if rd = 0#5 then 0#64 else s.x rs2)) ∧
  (∀ (rs1 rs2 : Reg) (imm : BitVec 12) (s : State) (pa : Word) (r x : Bool),
    s.translate (BitVec.ofInt 64 ((s.x rs1).toInt + imm.toInt)) = .ok pa r true x → backed s.params.regions pa.toNat 4 = true →
    ∃ t, exec (.sw rs1 rs2 imm) s = .next t ∧ ({ t with pc := pa } : State).fetch = some ((s.x rs2).setWidth 32))

/-! ### SYSTEM -/

/-- R235: ECALL raises the environment call of the current mode. -/
def Obligations.EcallRule : Prop :=
  decode 0x00000073#32 = .ok .ecall ∧
  ∀ s : State,
    (modeNumber s.priv = 0 → Raises s (exec .ecall s) .environmentCallFromU) ∧
    (modeNumber s.priv = 1 → Raises s (exec .ecall s) .environmentCallFromS) ∧
    (modeNumber s.priv = 2 → Raises s (exec .ecall s) .environmentCallFromH) ∧
    (modeNumber s.priv = 3 → Raises s (exec .ecall s) .environmentCallFromM)

/-- R236: EBREAK raises Breakpoint, with `debug_trap` true. -/
def Obligations.EbreakRule : Prop :=
  decode 0x00100073#32 = .ok .ebreak ∧
  ∀ s : State, Raises s (exec .ebreak s) .breakpoint ∧ ∃ t, exec .ebreak s = .next t ∧ t.debugTrap = true

/-- R237: MRET restores MIE from MPIE, the mode from MPP and `pc` from `mepc`, in every mode, and changes nothing else. -/
def Obligations.MretRule : Prop :=
  decode 0x30200073#32 = .ok .mret ∧
  ∀ s : State, ∃ t, exec .mret s = .next t ∧ t.pc = s.csr 0x341#12 ∧
    modeNumber t.priv = (s.csr 0x300#12).toNat / 2 ^ 11 % 4 ∧
    (∀ i < 64, (t.csr 0x300#12).getLsbD i = if i = 3 then (s.csr 0x300#12).getLsbD 7 else (s.csr 0x300#12).getLsbD i) ∧
    (∀ a, a ≠ 0x300#12 → t.csr a = s.csr a) ∧ SameRegs s t ∧ SameMem s t ∧ t.params = s.params ∧ t.faultOut = s.faultOut ∧
    t.debugTrap = s.debugTrap ∧ t.instrOut = s.instrOut

/-- R238 to R244: the six CSR instructions, for every CSR address, in every mode. -/
def Obligations.CsrRules : Prop :=
  (∀ (rd : Reg) (a : CsrAddr) (rs1 : Reg) (s : State),
    (decode (encI a rs1 0b001#3 rd 0b1110011#7) = .ok (.csrrw rd a rs1) ∧ UpdatesCsr (.csrrw rd a rs1) s rd a (s.x rs1)) ∧
    (decode (encI a rs1 0b010#3 rd 0b1110011#7) = .ok (.csrrs rd a rs1) ∧
      UpdatesCsr (.csrrs rd a rs1) s rd a (s.csr a ||| s.x rs1)) ∧
    (decode (encI a rs1 0b011#3 rd 0b1110011#7) = .ok (.csrrc rd a rs1) ∧
      UpdatesCsr (.csrrc rd a rs1) s rd a (s.csr a &&& ~~~s.x rs1))) ∧
  (∀ (rd : Reg) (a : CsrAddr) (uimm : BitVec 5) (s : State),
    (decode (encI a uimm 0b101#3 rd 0b1110011#7) = .ok (.csrrwi rd a uimm) ∧
      UpdatesCsr (.csrrwi rd a uimm) s rd a (BitVec.ofNat 64 uimm.toNat)) ∧
    (decode (encI a uimm 0b110#3 rd 0b1110011#7) = .ok (.csrrsi rd a uimm) ∧
      UpdatesCsr (.csrrsi rd a uimm) s rd a (s.csr a ||| BitVec.ofNat 64 uimm.toNat)) ∧
    (decode (encI a uimm 0b111#3 rd 0b1110011#7) = .ok (.csrrci rd a uimm) ∧
      UpdatesCsr (.csrrci rd a uimm) s rd a (s.csr a &&& ~~~BitVec.ofNat 64 uimm.toNat))) ∧
  (∀ w : InstrWord, opcodeOf w = 0b1110011#7 → funct3Of w = 0b100#3 → ∃ e, decode w = .error e)

/-! ### Exceptions -/

/-- R270 to R272: trap entry for every exception, and the gate of `TRAP_GATE_OBSERVED`. -/
def Obligations.TrapEntryRule : Prop :=
  ∀ (s : State) (e : Exception), Traps s (s.raise e) e ∧ (s.raise e).instrOut = s.instrOut

/-- R262, R263: what `mcause` and `mtval` receive for every kind that is raised, and the codes of the kinds that are not. -/
def Obligations.CauseAndValueOfEveryKind : Prop :=
  ∀ (s : State) (a : Word), NotGated s →
    let cause := fun e : Exception => (s.raise e).csr 0x342#12
    let value := fun e : Exception => (s.raise e).csr 0x343#12
    (cause (.instructionAccessFault a) = 1#64 ∧ value (.instructionAccessFault a) = a) ∧
    (cause .illegalInstruction = 2#64 ∧ value .illegalInstruction = 0#64) ∧
    (cause .breakpoint = 3#64 ∧ value .breakpoint = 0#64) ∧
    (cause (.loadAccessFault a) = 5#64 ∧ value (.loadAccessFault a) = a) ∧
    (cause (.storeAccessFault a) = 7#64 ∧ value (.storeAccessFault a) = a) ∧
    (cause .environmentCallFromU = 8#64 ∧ value .environmentCallFromU = 0#64) ∧
    (cause .environmentCallFromS = 9#64 ∧ value .environmentCallFromS = 0#64) ∧
    (cause .environmentCallFromH = 10#64 ∧ value .environmentCallFromH = 0#64) ∧
    (cause .environmentCallFromM = 11#64 ∧ value .environmentCallFromM = 0#64) ∧
    (cause (.loadPageFault a) = 13#64 ∧ value (.loadPageFault a) = a) ∧
    (cause (.storePageFault a) = 15#64 ∧ value (.storePageFault a) = a) ∧
    cause (.instructionAddressMisaligned a) = 0#64 ∧ cause (.loadAddressMisaligned a) = 4#64 ∧
    cause (.storeAddressMisaligned a) = 6#64 ∧ cause (.instructionPageFault a) = 12#64

/-- Derived (R264): which instruction raises which kind, and with which address; the other kinds are never raised. -/
def Obligations.FaultsComeFromTheirInstructions : Prop :=
  ∀ s t : State, step s = .next t →
    (∀ a, t.faultOut = some (.instructionAccessFault a) → s.fetch = none ∧ a = s.pc) ∧
    (t.faultOut = some .illegalInstruction → ∃ w e, s.fetch = some w ∧ decode w = .error e) ∧
    (t.faultOut = some .breakpoint → s.fetch = some 0x00100073#32) ∧
    (t.faultOut = some .environmentCallFromU → s.fetch = some 0x00000073#32 ∧ modeNumber s.priv = 0) ∧
    (t.faultOut = some .environmentCallFromS → s.fetch = some 0x00000073#32 ∧ modeNumber s.priv = 1) ∧
    (t.faultOut = some .environmentCallFromH → s.fetch = some 0x00000073#32 ∧ modeNumber s.priv = 2) ∧
    (t.faultOut = some .environmentCallFromM → s.fetch = some 0x00000073#32 ∧ modeNumber s.priv = 3) ∧
    (∀ a, t.faultOut = some (.loadPageFault a) ∨ t.faultOut = some (.loadAccessFault a) →
      ∃ w, s.fetch = some w ∧ opcodeOf w = 0b0000011#7 ∧ a = BitVec.ofInt 64 ((s.x (rs1Of w)).toInt + (immIOf w).toInt)) ∧
    (∀ a, t.faultOut = some (.storePageFault a) ∨ t.faultOut = some (.storeAccessFault a) →
      ∃ w, s.fetch = some w ∧ opcodeOf w = 0b0100011#7 ∧ a = BitVec.ofInt 64 ((s.x (rs1Of w)).toInt + (immSOf w).toInt)) ∧
    (∀ a, t.faultOut ≠ some (.instructionAddressMisaligned a) ∧ t.faultOut ≠ some (.loadAddressMisaligned a) ∧
      t.faultOut ≠ some (.storeAddressMisaligned a) ∧ t.faultOut ≠ some (.instructionPageFault a))

/-- R274: after a trap `mcause` holds one of the eleven codes the hardware writes; bits 63 to 4 are 0. -/
def Obligations.TrapCausesAreSmall : Prop :=
  ∀ s t : State, NotGated s → step s = .next t → t.faultOut ≠ none →
    (t.csr 0x342#12).toNat ∈ [1, 2, 3, 5, 7, 8, 9, 10, 11, 13, 15]

/-- Derived (R273): a step that faults changed nothing but what trap entry changes. -/
def Obligations.TrapsArePrecise : Prop :=
  ∀ (s t : State) (e : Exception), step s = .next t → t.faultOut = some e → Traps s t e

/-- Derived (R270, R277): MRET right after a trap gives back `pc`, the mode and MIE, and no register or byte has changed. -/
def Obligations.TrapAndReturn : Prop :=
  ∀ (s : State) (e : Exception), NotGated s →
    ∃ t, exec .mret (s.raise e) = .next t ∧ t.pc = s.pc ∧ t.priv = s.priv ∧
      (t.csr 0x300#12).getLsbD 3 = (s.csr 0x300#12).getLsbD 3 ∧ SameRegs s t ∧ SameMem s t

/-- Derived (R278): a second trap overwrites the first one's registers and leaves MPIE 0; where the trap target cannot be fetched,
a step at the target traps to the target again. -/
def Obligations.NestedTraps : Prop :=
  (∀ (s : State) (e f : Exception), s.params.trapGateObserved = false →
    ((s.raise e).raise f).csr 0x341#12 = BitVec.ofNat 64 ((s.csr 0x305#12).toNat / 4 * 4) ∧
    ((s.raise e).raise f).csr 0x342#12 = f.code ∧ (((s.raise e).raise f).csr 0x300#12).getLsbD 7 = false) ∧
  (∀ s : State, LegalMap s.params.regions → s.params.trapGateObserved = false → s.pc = BitVec.ofNat 64 ((s.csr 0x305#12).toNat / 4 * 4) →
    s.fetch = none → ∃ t, step s = .next t ∧ t.pc = s.pc ∧ t.csr 0x341#12 = s.pc ∧ t.csr 0x342#12 = 1#64 ∧ t.csr 0x343#12 = s.pc)

/-! ### The step -/

/-- A step runs the instruction decoded from the word at `pc`: `step` is `exec` of it, from the state with the outputs of R260 set and
everything else as it was (R12, R260). -/
def Obligations.StepRunsDecodedInstruction : Prop :=
  ∀ (s : State) (w : InstrWord) (i : Instr), LegalMap s.params.regions → s.fetch = some w → decode w = .ok i →
    i.wellFormed = true ∧ ∃ u, StartsWord s u w ∧ step s = exec i u

/-- R70: the fetch reads four bytes at `pc`, physical and little-endian; where no region holds them, InstructionAccessFault with
`pc` is raised. -/
def Obligations.FetchRule : Prop :=
  ∀ s : State, LegalMap s.params.regions →
    (InOneRegion s.params.regions s.pc.toNat 4 → ∃ w, s.fetch = some w ∧ w.toNat = bytesValue s s.pc.toNat 4) ∧
    (¬InOneRegion s.params.regions s.pc.toNat 4 →
      s.fetch = none ∧ ∃ t, step s = .next t ∧ Traps s t (.instructionAccessFault s.pc))

/-- R61: a step is refused for its memory map exactly where the map is not legal; no step moves, resizes, adds or removes a region. -/
def Obligations.IllegalMapRefused : Prop :=
  (∀ s : State, step s = .refused .illegalRegions ↔ ¬LegalMap s.params.regions) ∧
  (∀ s t : State, step s = .next t → t.params.regions = s.params.regions)

/-- Derived (R88, R265): the translation is unsupported exactly where `satp` names no implemented mode; an instruction is refused exactly
where it is a load or store made then. -/
def Obligations.OnlyUnsupportedAccessesRefused : Prop :=
  (∀ (s : State) (va : Word), s.translate va = .unsupported ↔ ¬∃ m, InMode s m) ∧
  (∀ (i : Instr) (s : State),
    exec i s = .refused .translationNotImplemented ↔ IsLoadOrStore (encode i) ∧ ¬∃ m, InMode s m) ∧
  (∀ (i : Instr) (s : State) (r : Refusal), exec i s = .refused r → r = .translationNotImplemented)

/-- Derived (R310, R314): with a legal map and an implemented translation mode every step completes, and a step never ends in a machine
fault. -/
def Obligations.StepCompletes : Prop :=
  (∀ s : State, s.Ready → ∃ t, step s = .next t) ∧ ∀ (s : State) (r : Fault), step s ≠ .fault r

/-- Every step keeps the invariant: `x0` stored as 0, memory in canonical form and inside the regions, the CSR bank in canonical form,
the outputs fitting together. -/
def Obligations.InvariantKept : Prop :=
  ∀ s t : State, s.Inv → step s = .next t → t.Inv

/-- Derived (R48, R300): the state after reset meets the invariant, and resetting a state that meets it gives one that does. The clauses
of the invariant about the outputs (`debugFits`, `faultRaised`) rest on the model's choice (log 4, DESIGN CHOICE) that `fault_out` is none
and `debug_trap` false before the first step: R48 and R300 say nothing of the outputs. -/
def Obligations.InvariantAtReset : Prop :=
  State.reset.Inv ∧ ∀ s : State, s.Inv → s.applyReset.Inv

/-- Derived (R9, R61, R316): no step changes a parameter. -/
def Obligations.ParametersNeverChange : Prop :=
  ∀ s t : State, step s = .next t → t.params = s.params

/-- R282: the mode changes only by a trap, to Machine, by an MRET, to the mode in MPP, and by reset, to Machine. -/
def Obligations.ModeChangesOnlyByTrapAndMret : Prop :=
  (∀ s t : State, step s = .next t → t.priv ≠ s.priv →
    (t.faultOut ≠ none ∧ t.priv = .machine) ∨
    (s.fetch = some 0x30200073#32 ∧ modeNumber t.priv = (s.csr 0x300#12).toNat / 2 ^ 11 % 4)) ∧
  (∀ s : State, s.applyReset.priv = .machine)

/-- R281: two states that differ in the mode alone step alike, to the same `pc`, registers, memory, parameters, outputs and CSRs, but for
which environment call an ECALL raises (in `fault_out` and `mcause`) and for the MPP bits that a trap saves. The mode afterwards is the same
too, or the step left it alone in both. -/
def Obligations.ModeAffectsOnlyEcallAndMpp : Prop :=
  ∀ (s t : State) (p : PrivMode), step s = .next t →
    ∃ u, step { s with priv := p } = .next u ∧ u.pc = t.pc ∧ SameRegs t u ∧ SameMem t u ∧ u.params = t.params ∧
      u.debugTrap = t.debugTrap ∧ u.instrOut = t.instrOut ∧ (u.priv = t.priv ∨ (u.priv = p ∧ t.priv = s.priv)) ∧
      (s.fetch ≠ some 0x00000073#32 → u.faultOut = t.faultOut ∧ u.csr 0x342#12 = t.csr 0x342#12) ∧
      (∀ a, a ≠ 0x300#12 → a ≠ 0x342#12 → u.csr a = t.csr a) ∧
      (∀ i < 64, i ≠ 11 → i ≠ 12 → (u.csr 0x300#12).getLsbD i = (t.csr 0x300#12).getLsbD i) ∧
      (t.faultOut = none → u.csr 0x300#12 = t.csr 0x300#12)

/-- Derived (R11): nothing reads the diagnostic outputs. -/
def Obligations.OutputsAreNotReadBack : Prop :=
  ∀ (s t : State) (f : Option Exception) (d : Bool) (w : InstrWord), step s = .next t →
    ∃ u, step { s with faultOut := f, debugTrap := d, instrOut := w } = .next u ∧ u.pc = t.pc ∧ u.priv = t.priv ∧
      SameRegs t u ∧ SameCsrs t u ∧ SameMem t u ∧ u.params = t.params ∧ u.faultOut = t.faultOut ∧ u.debugTrap = t.debugTrap ∧
      (s.fetch ≠ none → u.instrOut = t.instrOut)

/-- Derived (R25): a step without a fault, of an instruction that is no jump, branch or MRET, advances `pc` by 4. -/
def Obligations.PcAdvancesByFour : Prop :=
  ∀ (s t : State) (w : InstrWord), step s = .next t → t.faultOut = none → s.fetch = some w →
    opcodeOf w ≠ 0b1101111#7 → opcodeOf w ≠ 0b1100111#7 → opcodeOf w ≠ 0b1100011#7 → w ≠ 0x30200073#32 → t.pc = nextPc s

/-- Derived (R32, R33): what changes a CSR: a CSR instruction that names it, a trap its four CSRs, an MRET `mstatus`. -/
def Obligations.CsrWriters : Prop :=
  ∀ (s t : State) (a : CsrAddr), step s = .next t → t.csr a ≠ s.csr a →
    (∃ w, s.fetch = some w ∧ IsCsrWord w ∧ immIOf w = a ∧ t.faultOut = none) ∨
    (t.faultOut ≠ none ∧ a ∈ [0x300#12, 0x341#12, 0x342#12, 0x343#12]) ∨
    (s.fetch = some 0x30200073#32 ∧ a = 0x300#12)

/-- Derived (R64, R67, R89, R93): a byte of memory changes only by a store that does not fault, among the bytes at the address it was
translated to. -/
def Obligations.MemoryWriters : Prop :=
  ∀ (s t : State) (a : Nat), step s = .next t → t.byte a ≠ s.byte a →
    ∃ w pa r x n, s.fetch = some w ∧ opcodeOf w = 0b0100011#7 ∧ t.faultOut = none ∧ n = 2 ^ (funct3Of w).toNat ∧
      s.translate (BitVec.ofInt 64 ((s.x (rs1Of w)).toInt + (immSOf w).toInt)) = .ok pa r true x ∧
      pa.toNat ≤ a ∧ a < pa.toNat + n ∧ backed s.params.regions pa.toNat n = true

/-- Derived (R23): a register changes only by a step without a fault, and it is the register in the `rd` field of the word. -/
def Obligations.RegisterWriters : Prop :=
  ∀ (s t : State) (r : Reg), step s = .next t → t.x r ≠ s.x r →
    ∃ w, s.fetch = some w ∧ rdOf w = r ∧ r ≠ 0#5 ∧ t.faultOut = none ∧ opcodeOf w ≠ 0b1100011#7 ∧ opcodeOf w ≠ 0b0100011#7 ∧
      opcodeOf w ≠ 0b0001111#7

/-- R284: `debug_trap` is true exactly for the step of an EBREAK, which is then a trap like any other. -/
def Obligations.DebugTrapOnlyByEbreak : Prop :=
  ∀ s t : State, step s = .next t →
    (t.debugTrap = true ↔ s.fetch = some 0x00100073#32) ∧ (t.debugTrap = true → Traps s t .breakpoint)

/-- R312 (derived, with the budget of log 13): running until a debugger trap answers the state after the first step that ends with
`debug_trap` true. -/
def Obligations.RunStopsAtDebugTrap : Prop :=
  ∀ (n : Nat) (s t : State), runUntilDebugTrap n s = some t ↔
    ∃ k < n, ∃ u, stepTimes k s = .next u ∧ (k = 0 ∨ u.debugTrap = false) ∧ step u = .next t ∧ t.debugTrap = true
end

