-- ==== Sys2Proof/Laws/Encode.lean ====
section
/-! SUPPORT. The fields of the words that the format layouts build: each field of a format read back from its word. -/

namespace Sys2Proof

/-! ### Slices of a concatenation -/

/-- A slice that lies in the upper part. -/
theorem extractLsb'_append_upper {n m : Nat} (x : BitVec n) (y : BitVec m) (s l : Nat) (h : m ≤ s) :
    BitVec.extractLsb' s l (x ++ y) = BitVec.extractLsb' (s - m) l x := by
  ext i hi
  simp only [BitVec.getElem_extractLsb', BitVec.getLsbD_append]
  rw [if_neg (by omega), show s + i - m = s - m + i by omega]

/-- A slice that lies in the lower part. -/
theorem extractLsb'_append_lower {n m : Nat} (x : BitVec n) (y : BitVec m) (s l : Nat) (h : s + l ≤ m) :
    BitVec.extractLsb' s l (x ++ y) = BitVec.extractLsb' s l y := by
  ext i hi
  simp only [BitVec.getElem_extractLsb', BitVec.getLsbD_append]
  rw [if_pos (by omega)]

/-- The slice that is the whole. -/
theorem extractLsb'_whole {n : Nat} (x : BitVec n) : BitVec.extractLsb' 0 n x = x := by
  ext i hi
  simp

/-! ### encR -/

@[simp] theorem funct7Of_encR (funct7 : BitVec 7) (rs2 rs1 : Reg) (funct3 : BitVec 3) (rd : Reg) (opcode : BitVec 7) :
    funct7Of (encR funct7 rs2 rs1 funct3 rd opcode) = funct7 :=
  (extractLsb'_append_upper _ _ 25 7 (by decide)).trans ((extractLsb'_append_upper _ _ 18 7 (by decide)).trans ((extractLsb'_append_upper _ _ 13 7 (by decide)).trans ((extractLsb'_append_upper _ _ 10 7 (by decide)).trans ((extractLsb'_append_upper _ _ 5 7 (by decide)).trans ((extractLsb'_whole _))))))

@[simp] theorem rs2Of_encR (funct7 : BitVec 7) (rs2 rs1 : Reg) (funct3 : BitVec 3) (rd : Reg) (opcode : BitVec 7) :
    rs2Of (encR funct7 rs2 rs1 funct3 rd opcode) = rs2 :=
  (extractLsb'_append_upper _ _ 20 5 (by decide)).trans ((extractLsb'_append_upper _ _ 13 5 (by decide)).trans ((extractLsb'_append_upper _ _ 8 5 (by decide)).trans ((extractLsb'_append_upper _ _ 5 5 (by decide)).trans ((extractLsb'_append_lower _ _ 0 5 (by decide)).trans ((extractLsb'_whole _))))))

@[simp] theorem rs1Of_encR (funct7 : BitVec 7) (rs2 rs1 : Reg) (funct3 : BitVec 3) (rd : Reg) (opcode : BitVec 7) :
    rs1Of (encR funct7 rs2 rs1 funct3 rd opcode) = rs1 :=
  (extractLsb'_append_upper _ _ 15 5 (by decide)).trans ((extractLsb'_append_upper _ _ 8 5 (by decide)).trans ((extractLsb'_append_upper _ _ 3 5 (by decide)).trans ((extractLsb'_append_lower _ _ 0 5 (by decide)).trans ((extractLsb'_whole _)))))

@[simp] theorem funct3Of_encR (funct7 : BitVec 7) (rs2 rs1 : Reg) (funct3 : BitVec 3) (rd : Reg) (opcode : BitVec 7) :
    funct3Of (encR funct7 rs2 rs1 funct3 rd opcode) = funct3 :=
  (extractLsb'_append_upper _ _ 12 3 (by decide)).trans ((extractLsb'_append_upper _ _ 5 3 (by decide)).trans ((extractLsb'_append_lower _ _ 0 3 (by decide)).trans ((extractLsb'_whole _))))

@[simp] theorem rdOf_encR (funct7 : BitVec 7) (rs2 rs1 : Reg) (funct3 : BitVec 3) (rd : Reg) (opcode : BitVec 7) :
    rdOf (encR funct7 rs2 rs1 funct3 rd opcode) = rd :=
  (extractLsb'_append_upper _ _ 7 5 (by decide)).trans ((extractLsb'_append_lower _ _ 0 5 (by decide)).trans ((extractLsb'_whole _)))

@[simp] theorem opcodeOf_encR (funct7 : BitVec 7) (rs2 rs1 : Reg) (funct3 : BitVec 3) (rd : Reg) (opcode : BitVec 7) :
    opcodeOf (encR funct7 rs2 rs1 funct3 rd opcode) = opcode :=
  (extractLsb'_append_lower _ _ 0 7 (by decide)).trans ((extractLsb'_whole _))

/-! ### encI -/

@[simp] theorem immIOf_encI (imm : BitVec 12) (rs1 : Reg) (funct3 : BitVec 3) (rd : Reg) (opcode : BitVec 7) :
    immIOf (encI imm rs1 funct3 rd opcode) = imm :=
  (extractLsb'_append_upper _ _ 20 12 (by decide)).trans ((extractLsb'_append_upper _ _ 13 12 (by decide)).trans ((extractLsb'_append_upper _ _ 8 12 (by decide)).trans ((extractLsb'_append_upper _ _ 5 12 (by decide)).trans ((extractLsb'_whole _)))))

@[simp] theorem rs1Of_encI (imm : BitVec 12) (rs1 : Reg) (funct3 : BitVec 3) (rd : Reg) (opcode : BitVec 7) :
    rs1Of (encI imm rs1 funct3 rd opcode) = rs1 :=
  (extractLsb'_append_upper _ _ 15 5 (by decide)).trans ((extractLsb'_append_upper _ _ 8 5 (by decide)).trans ((extractLsb'_append_upper _ _ 3 5 (by decide)).trans ((extractLsb'_append_lower _ _ 0 5 (by decide)).trans ((extractLsb'_whole _)))))

@[simp] theorem funct3Of_encI (imm : BitVec 12) (rs1 : Reg) (funct3 : BitVec 3) (rd : Reg) (opcode : BitVec 7) :
    funct3Of (encI imm rs1 funct3 rd opcode) = funct3 :=
  (extractLsb'_append_upper _ _ 12 3 (by decide)).trans ((extractLsb'_append_upper _ _ 5 3 (by decide)).trans ((extractLsb'_append_lower _ _ 0 3 (by decide)).trans ((extractLsb'_whole _))))

@[simp] theorem rdOf_encI (imm : BitVec 12) (rs1 : Reg) (funct3 : BitVec 3) (rd : Reg) (opcode : BitVec 7) :
    rdOf (encI imm rs1 funct3 rd opcode) = rd :=
  (extractLsb'_append_upper _ _ 7 5 (by decide)).trans ((extractLsb'_append_lower _ _ 0 5 (by decide)).trans ((extractLsb'_whole _)))

@[simp] theorem opcodeOf_encI (imm : BitVec 12) (rs1 : Reg) (funct3 : BitVec 3) (rd : Reg) (opcode : BitVec 7) :
    opcodeOf (encI imm rs1 funct3 rd opcode) = opcode :=
  (extractLsb'_append_lower _ _ 0 7 (by decide)).trans ((extractLsb'_whole _))

/-! ### encS -/

@[simp] theorem slice25_7_encS (imm : BitVec 12) (rs2 rs1 : Reg) (funct3 : BitVec 3) (opcode : BitVec 7) :
    (encS imm rs2 rs1 funct3 opcode).extractLsb' 25 7 = imm.extractLsb' 5 7 :=
  (extractLsb'_append_upper _ _ 25 7 (by decide)).trans ((extractLsb'_append_upper _ _ 18 7 (by decide)).trans ((extractLsb'_append_upper _ _ 13 7 (by decide)).trans ((extractLsb'_append_upper _ _ 10 7 (by decide)).trans ((extractLsb'_append_upper _ _ 5 7 (by decide)).trans ((extractLsb'_whole _))))))

@[simp] theorem rs2Of_encS (imm : BitVec 12) (rs2 rs1 : Reg) (funct3 : BitVec 3) (opcode : BitVec 7) :
    rs2Of (encS imm rs2 rs1 funct3 opcode) = rs2 :=
  (extractLsb'_append_upper _ _ 20 5 (by decide)).trans ((extractLsb'_append_upper _ _ 13 5 (by decide)).trans ((extractLsb'_append_upper _ _ 8 5 (by decide)).trans ((extractLsb'_append_upper _ _ 5 5 (by decide)).trans ((extractLsb'_append_lower _ _ 0 5 (by decide)).trans ((extractLsb'_whole _))))))

@[simp] theorem rs1Of_encS (imm : BitVec 12) (rs2 rs1 : Reg) (funct3 : BitVec 3) (opcode : BitVec 7) :
    rs1Of (encS imm rs2 rs1 funct3 opcode) = rs1 :=
  (extractLsb'_append_upper _ _ 15 5 (by decide)).trans ((extractLsb'_append_upper _ _ 8 5 (by decide)).trans ((extractLsb'_append_upper _ _ 3 5 (by decide)).trans ((extractLsb'_append_lower _ _ 0 5 (by decide)).trans ((extractLsb'_whole _)))))

@[simp] theorem funct3Of_encS (imm : BitVec 12) (rs2 rs1 : Reg) (funct3 : BitVec 3) (opcode : BitVec 7) :
    funct3Of (encS imm rs2 rs1 funct3 opcode) = funct3 :=
  (extractLsb'_append_upper _ _ 12 3 (by decide)).trans ((extractLsb'_append_upper _ _ 5 3 (by decide)).trans ((extractLsb'_append_lower _ _ 0 3 (by decide)).trans ((extractLsb'_whole _))))

@[simp] theorem slice7_5_encS (imm : BitVec 12) (rs2 rs1 : Reg) (funct3 : BitVec 3) (opcode : BitVec 7) :
    (encS imm rs2 rs1 funct3 opcode).extractLsb' 7 5 = imm.extractLsb' 0 5 :=
  (extractLsb'_append_upper _ _ 7 5 (by decide)).trans ((extractLsb'_append_lower _ _ 0 5 (by decide)).trans ((extractLsb'_whole _)))

@[simp] theorem opcodeOf_encS (imm : BitVec 12) (rs2 rs1 : Reg) (funct3 : BitVec 3) (opcode : BitVec 7) :
    opcodeOf (encS imm rs2 rs1 funct3 opcode) = opcode :=
  (extractLsb'_append_lower _ _ 0 7 (by decide)).trans ((extractLsb'_whole _))

/-! ### encB -/

@[simp] theorem slice31_1_encB (off : BitVec 13) (rs2 rs1 : Reg) (funct3 : BitVec 3) (opcode : BitVec 7) :
    (encB off rs2 rs1 funct3 opcode).extractLsb' 31 1 = off.extractLsb' 12 1 :=
  (extractLsb'_append_upper _ _ 31 1 (by decide)).trans ((extractLsb'_append_upper _ _ 24 1 (by decide)).trans ((extractLsb'_append_upper _ _ 23 1 (by decide)).trans ((extractLsb'_append_upper _ _ 19 1 (by decide)).trans ((extractLsb'_append_upper _ _ 16 1 (by decide)).trans ((extractLsb'_append_upper _ _ 11 1 (by decide)).trans ((extractLsb'_append_upper _ _ 6 1 (by decide)).trans ((extractLsb'_whole _))))))))

@[simp] theorem slice25_6_encB (off : BitVec 13) (rs2 rs1 : Reg) (funct3 : BitVec 3) (opcode : BitVec 7) :
    (encB off rs2 rs1 funct3 opcode).extractLsb' 25 6 = off.extractLsb' 5 6 :=
  (extractLsb'_append_upper _ _ 25 6 (by decide)).trans ((extractLsb'_append_upper _ _ 18 6 (by decide)).trans ((extractLsb'_append_upper _ _ 17 6 (by decide)).trans ((extractLsb'_append_upper _ _ 13 6 (by decide)).trans ((extractLsb'_append_upper _ _ 10 6 (by decide)).trans ((extractLsb'_append_upper _ _ 5 6 (by decide)).trans ((extractLsb'_append_lower _ _ 0 6 (by decide)).trans ((extractLsb'_whole _))))))))

@[simp] theorem rs2Of_encB (off : BitVec 13) (rs2 rs1 : Reg) (funct3 : BitVec 3) (opcode : BitVec 7) :
    rs2Of (encB off rs2 rs1 funct3 opcode) = rs2 :=
  (extractLsb'_append_upper _ _ 20 5 (by decide)).trans ((extractLsb'_append_upper _ _ 13 5 (by decide)).trans ((extractLsb'_append_upper _ _ 12 5 (by decide)).trans ((extractLsb'_append_upper _ _ 8 5 (by decide)).trans ((extractLsb'_append_upper _ _ 5 5 (by decide)).trans ((extractLsb'_append_lower _ _ 0 5 (by decide)).trans ((extractLsb'_whole _)))))))

@[simp] theorem rs1Of_encB (off : BitVec 13) (rs2 rs1 : Reg) (funct3 : BitVec 3) (opcode : BitVec 7) :
    rs1Of (encB off rs2 rs1 funct3 opcode) = rs1 :=
  (extractLsb'_append_upper _ _ 15 5 (by decide)).trans ((extractLsb'_append_upper _ _ 8 5 (by decide)).trans ((extractLsb'_append_upper _ _ 7 5 (by decide)).trans ((extractLsb'_append_upper _ _ 3 5 (by decide)).trans ((extractLsb'_append_lower _ _ 0 5 (by decide)).trans ((extractLsb'_whole _))))))

@[simp] theorem funct3Of_encB (off : BitVec 13) (rs2 rs1 : Reg) (funct3 : BitVec 3) (opcode : BitVec 7) :
    funct3Of (encB off rs2 rs1 funct3 opcode) = funct3 :=
  (extractLsb'_append_upper _ _ 12 3 (by decide)).trans ((extractLsb'_append_upper _ _ 5 3 (by decide)).trans ((extractLsb'_append_upper _ _ 4 3 (by decide)).trans ((extractLsb'_append_lower _ _ 0 3 (by decide)).trans ((extractLsb'_whole _)))))

@[simp] theorem slice8_4_encB (off : BitVec 13) (rs2 rs1 : Reg) (funct3 : BitVec 3) (opcode : BitVec 7) :
    (encB off rs2 rs1 funct3 opcode).extractLsb' 8 4 = off.extractLsb' 1 4 :=
  (extractLsb'_append_upper _ _ 8 4 (by decide)).trans ((extractLsb'_append_upper _ _ 1 4 (by decide)).trans ((extractLsb'_append_lower _ _ 0 4 (by decide)).trans ((extractLsb'_whole _))))

@[simp] theorem slice7_1_encB (off : BitVec 13) (rs2 rs1 : Reg) (funct3 : BitVec 3) (opcode : BitVec 7) :
    (encB off rs2 rs1 funct3 opcode).extractLsb' 7 1 = off.extractLsb' 11 1 :=
  (extractLsb'_append_upper _ _ 7 1 (by decide)).trans ((extractLsb'_append_lower _ _ 0 1 (by decide)).trans ((extractLsb'_whole _)))

@[simp] theorem opcodeOf_encB (off : BitVec 13) (rs2 rs1 : Reg) (funct3 : BitVec 3) (opcode : BitVec 7) :
    opcodeOf (encB off rs2 rs1 funct3 opcode) = opcode :=
  (extractLsb'_append_lower _ _ 0 7 (by decide)).trans ((extractLsb'_whole _))

/-! ### encU -/

@[simp] theorem immUOf_encU (imm20 : BitVec 20) (rd : Reg) (opcode : BitVec 7) :
    immUOf (encU imm20 rd opcode) = imm20 :=
  (extractLsb'_append_upper _ _ 12 20 (by decide)).trans ((extractLsb'_append_upper _ _ 5 20 (by decide)).trans ((extractLsb'_whole _)))

@[simp] theorem rdOf_encU (imm20 : BitVec 20) (rd : Reg) (opcode : BitVec 7) :
    rdOf (encU imm20 rd opcode) = rd :=
  (extractLsb'_append_upper _ _ 7 5 (by decide)).trans ((extractLsb'_append_lower _ _ 0 5 (by decide)).trans ((extractLsb'_whole _)))

@[simp] theorem opcodeOf_encU (imm20 : BitVec 20) (rd : Reg) (opcode : BitVec 7) :
    opcodeOf (encU imm20 rd opcode) = opcode :=
  (extractLsb'_append_lower _ _ 0 7 (by decide)).trans ((extractLsb'_whole _))

/-! ### encJ -/

@[simp] theorem slice31_1_encJ (off : BitVec 21) (rd : Reg) (opcode : BitVec 7) :
    (encJ off rd opcode).extractLsb' 31 1 = off.extractLsb' 20 1 :=
  (extractLsb'_append_upper _ _ 31 1 (by decide)).trans ((extractLsb'_append_upper _ _ 24 1 (by decide)).trans ((extractLsb'_append_upper _ _ 19 1 (by decide)).trans ((extractLsb'_append_upper _ _ 11 1 (by decide)).trans ((extractLsb'_append_upper _ _ 10 1 (by decide)).trans ((extractLsb'_whole _))))))

@[simp] theorem slice21_10_encJ (off : BitVec 21) (rd : Reg) (opcode : BitVec 7) :
    (encJ off rd opcode).extractLsb' 21 10 = off.extractLsb' 1 10 :=
  (extractLsb'_append_upper _ _ 21 10 (by decide)).trans ((extractLsb'_append_upper _ _ 14 10 (by decide)).trans ((extractLsb'_append_upper _ _ 9 10 (by decide)).trans ((extractLsb'_append_upper _ _ 1 10 (by decide)).trans ((extractLsb'_append_lower _ _ 0 10 (by decide)).trans ((extractLsb'_whole _))))))

@[simp] theorem slice20_1_encJ (off : BitVec 21) (rd : Reg) (opcode : BitVec 7) :
    (encJ off rd opcode).extractLsb' 20 1 = off.extractLsb' 11 1 :=
  (extractLsb'_append_upper _ _ 20 1 (by decide)).trans ((extractLsb'_append_upper _ _ 13 1 (by decide)).trans ((extractLsb'_append_upper _ _ 8 1 (by decide)).trans ((extractLsb'_append_lower _ _ 0 1 (by decide)).trans ((extractLsb'_whole _)))))

@[simp] theorem slice12_8_encJ (off : BitVec 21) (rd : Reg) (opcode : BitVec 7) :
    (encJ off rd opcode).extractLsb' 12 8 = off.extractLsb' 12 8 :=
  (extractLsb'_append_upper _ _ 12 8 (by decide)).trans ((extractLsb'_append_upper _ _ 5 8 (by decide)).trans ((extractLsb'_append_lower _ _ 0 8 (by decide)).trans ((extractLsb'_whole _))))

@[simp] theorem rdOf_encJ (off : BitVec 21) (rd : Reg) (opcode : BitVec 7) :
    rdOf (encJ off rd opcode) = rd :=
  (extractLsb'_append_upper _ _ 7 5 (by decide)).trans ((extractLsb'_append_lower _ _ 0 5 (by decide)).trans ((extractLsb'_whole _)))

@[simp] theorem opcodeOf_encJ (off : BitVec 21) (rd : Reg) (opcode : BitVec 7) :
    opcodeOf (encJ off rd opcode) = opcode :=
  (extractLsb'_append_lower _ _ 0 7 (by decide)).trans ((extractLsb'_whole _))

/-! ### encShift6 -/

@[simp] theorem funct6Of_encShift6 (funct6 shamt : BitVec 6) (rs1 : Reg) (funct3 : BitVec 3) (rd : Reg) (opcode : BitVec 7) :
    funct6Of (encShift6 funct6 shamt rs1 funct3 rd opcode) = funct6 :=
  (extractLsb'_append_upper _ _ 26 6 (by decide)).trans ((extractLsb'_append_upper _ _ 19 6 (by decide)).trans ((extractLsb'_append_upper _ _ 14 6 (by decide)).trans ((extractLsb'_append_upper _ _ 11 6 (by decide)).trans ((extractLsb'_append_upper _ _ 6 6 (by decide)).trans ((extractLsb'_whole _))))))

@[simp] theorem shamt6Of_encShift6 (funct6 shamt : BitVec 6) (rs1 : Reg) (funct3 : BitVec 3) (rd : Reg) (opcode : BitVec 7) :
    shamt6Of (encShift6 funct6 shamt rs1 funct3 rd opcode) = shamt :=
  (extractLsb'_append_upper _ _ 20 6 (by decide)).trans ((extractLsb'_append_upper _ _ 13 6 (by decide)).trans ((extractLsb'_append_upper _ _ 8 6 (by decide)).trans ((extractLsb'_append_upper _ _ 5 6 (by decide)).trans ((extractLsb'_append_lower _ _ 0 6 (by decide)).trans ((extractLsb'_whole _))))))

@[simp] theorem rs1Of_encShift6 (funct6 shamt : BitVec 6) (rs1 : Reg) (funct3 : BitVec 3) (rd : Reg) (opcode : BitVec 7) :
    rs1Of (encShift6 funct6 shamt rs1 funct3 rd opcode) = rs1 :=
  (extractLsb'_append_upper _ _ 15 5 (by decide)).trans ((extractLsb'_append_upper _ _ 8 5 (by decide)).trans ((extractLsb'_append_upper _ _ 3 5 (by decide)).trans ((extractLsb'_append_lower _ _ 0 5 (by decide)).trans ((extractLsb'_whole _)))))

@[simp] theorem funct3Of_encShift6 (funct6 shamt : BitVec 6) (rs1 : Reg) (funct3 : BitVec 3) (rd : Reg) (opcode : BitVec 7) :
    funct3Of (encShift6 funct6 shamt rs1 funct3 rd opcode) = funct3 :=
  (extractLsb'_append_upper _ _ 12 3 (by decide)).trans ((extractLsb'_append_upper _ _ 5 3 (by decide)).trans ((extractLsb'_append_lower _ _ 0 3 (by decide)).trans ((extractLsb'_whole _))))

@[simp] theorem rdOf_encShift6 (funct6 shamt : BitVec 6) (rs1 : Reg) (funct3 : BitVec 3) (rd : Reg) (opcode : BitVec 7) :
    rdOf (encShift6 funct6 shamt rs1 funct3 rd opcode) = rd :=
  (extractLsb'_append_upper _ _ 7 5 (by decide)).trans ((extractLsb'_append_lower _ _ 0 5 (by decide)).trans ((extractLsb'_whole _)))

@[simp] theorem opcodeOf_encShift6 (funct6 shamt : BitVec 6) (rs1 : Reg) (funct3 : BitVec 3) (rd : Reg) (opcode : BitVec 7) :
    opcodeOf (encShift6 funct6 shamt rs1 funct3 rd opcode) = opcode :=
  (extractLsb'_append_lower _ _ 0 7 (by decide)).trans ((extractLsb'_whole _))

/-! ### Immediates put together again -/

/-- Two adjacent slices make one. -/
theorem extractLsb'_adjacent {n : Nat} (x : BitVec n) (s l k : Nat) :
    x.extractLsb' (s + l) k ++ x.extractLsb' s l = x.extractLsb' s (k + l) := by
  ext i hi
  simp only [BitVec.getElem_append, BitVec.getElem_extractLsb']
  split
  · rfl
  · rw [show s + l + (i - l) = s + i by omega]

/-- The last bit of an even offset. -/
theorem extractLsb'_even {n : Nat} (x : BitVec n) (h : offsetEven x = true) : x.extractLsb' 0 1 = 0#1 := by
  ext i hi
  obtain rfl : i = 0 := by omega
  simpa [offsetEven] using h

/-- A B offset is put together from its pieces; bit 0 must be 0. -/
theorem immBOf_encB (off : BitVec 13) (rs2 rs1 : Reg) (funct3 : BitVec 3) (opcode : BitVec 7) (h : offsetEven off = true) :
    immBOf (encB off rs2 rs1 funct3 opcode) = off := by
  unfold immBOf
  rw [slice31_1_encB, slice25_6_encB, slice8_4_encB, slice7_1_encB, ← extractLsb'_even off h]
  exact ((congrArg (fun y : BitVec 2 => y ++ off.extractLsb' 5 6 ++ off.extractLsb' 1 4 ++ off.extractLsb' 0 1)
      (extractLsb'_adjacent off 11 1 1)).trans
    (congrArg (fun y : BitVec 8 => y ++ off.extractLsb' 1 4 ++ off.extractLsb' 0 1) (extractLsb'_adjacent off 5 6 2))).trans
    ((congrArg (fun y : BitVec 12 => y ++ off.extractLsb' 0 1) (extractLsb'_adjacent off 1 4 8)).trans
    ((extractLsb'_adjacent off 0 1 12).trans (extractLsb'_whole off)))

/-- A J offset is put together from its pieces; bit 0 must be 0. -/
theorem immJOf_encJ (off : BitVec 21) (rd : Reg) (opcode : BitVec 7) (h : offsetEven off = true) :
    immJOf (encJ off rd opcode) = off := by
  unfold immJOf
  rw [slice31_1_encJ, slice21_10_encJ, slice20_1_encJ, slice12_8_encJ, ← extractLsb'_even off h]
  exact ((congrArg (fun y : BitVec 9 => y ++ off.extractLsb' 11 1 ++ off.extractLsb' 1 10 ++ off.extractLsb' 0 1)
      (extractLsb'_adjacent off 12 8 1)).trans
    (congrArg (fun y : BitVec 10 => y ++ off.extractLsb' 1 10 ++ off.extractLsb' 0 1) (extractLsb'_adjacent off 11 1 9))).trans
    ((congrArg (fun y : BitVec 20 => y ++ off.extractLsb' 0 1) (extractLsb'_adjacent off 1 10 10)).trans
    ((extractLsb'_adjacent off 0 1 20).trans (extractLsb'_whole off)))

/-- An S immediate is put together from its pieces. -/
theorem immSOf_encS (imm : BitVec 12) (rs2 rs1 : Reg) (funct3 : BitVec 3) (opcode : BitVec 7) :
    immSOf (encS imm rs2 rs1 funct3 opcode) = imm := by
  unfold immSOf
  rw [slice25_7_encS, slice7_5_encS]
  exact (extractLsb'_adjacent imm 0 5 7).trans (extractLsb'_whole imm)

end Sys2Proof
end

