-- ==== Sys2Proof/Laws/Sparse.lean ====
section
/-! SUPPORT. The laws of sparse storage: reads after erase, insert and set, unconditional in the list; and each operation keeps the
canonical form. -/

namespace Sys2Proof.Machine

variable {w : Nat}

@[simp] theorem Sparse.get_nil (a : Nat) : Sparse.get ([] : List (Nat × BitVec w)) a = 0#w := rfl

theorem Sparse.get_erase (m : List (Nat × BitVec w)) (a b : Nat) :
    Sparse.get (Sparse.erase m a) b = if b = a then 0#w else Sparse.get m b := by
  induction m with
  | nil => simp [Sparse.erase]
  | cons c rest ih =>
    obtain ⟨k, v⟩ := c
    simp only [Sparse.erase]
    split <;> simp only [Sparse.get, ih] <;> grind

theorem Sparse.get_insert (m : List (Nat × BitVec w)) (a b : Nat) (v : BitVec w) (h : ∀ c ∈ m, c.1 ≠ a) :
    Sparse.get (Sparse.insert m a v) b = if b = a then v else Sparse.get m b := by
  induction m with
  | nil => simp [Sparse.insert, Sparse.get, eq_comm]
  | cons c rest ih =>
    obtain ⟨k, u⟩ := c
    have ih := ih fun c hc => h c (List.mem_cons_of_mem _ hc)
    have hk : k ≠ a := h (k, u) (by simp)
    simp only [Sparse.insert]
    split <;> simp only [Sparse.get, ih] <;> grind

theorem Sparse.mem_erase {m : List (Nat × BitVec w)} {a : Nat} {c : Nat × BitVec w} :
    c ∈ Sparse.erase m a ↔ c ∈ m ∧ c.1 ≠ a := by
  induction m with
  | nil => simp [Sparse.erase]
  | cons d rest ih =>
    obtain ⟨k, v⟩ := d
    simp only [Sparse.erase]
    split <;> simp only [List.mem_cons, ih] <;> grind

theorem Sparse.mem_insert {m : List (Nat × BitVec w)} {a : Nat} {v : BitVec w} {c : Nat × BitVec w} :
    c ∈ Sparse.insert m a v ↔ c = (a, v) ∨ c ∈ m := by
  induction m with
  | nil => simp [Sparse.insert]
  | cons d rest ih =>
    obtain ⟨k, u⟩ := d
    simp only [Sparse.insert]
    split
    · simp only [List.mem_cons]
    · simp only [List.mem_cons, ih]
      grind

/-- A read after a write: the value written there, the old value elsewhere. -/
theorem Sparse.get_set (m : List (Nat × BitVec w)) (a b : Nat) (v : BitVec w) :
    Sparse.get (Sparse.set m a v) b = if b = a then v else Sparse.get m b := by
  unfold Sparse.set
  split
  · rename_i hv
    rw [Sparse.get_erase, hv]
  · rw [Sparse.get_insert _ _ _ _ fun c hc => (Sparse.mem_erase.1 hc).2, Sparse.get_erase]
    split <;> rfl

/-- What a pair of a list written to can be. -/
theorem Sparse.mem_set {m : List (Nat × BitVec w)} {a : Nat} {v : BitVec w} {c : Nat × BitVec w}
    (h : c ∈ Sparse.set m a v) : (c = (a, v) ∧ v ≠ 0#w) ∨ (c ∈ m ∧ c.1 ≠ a) := by
  unfold Sparse.set at h
  split at h
  · exact .inr (Sparse.mem_erase.1 h)
  · rcases Sparse.mem_insert.1 h with rfl | h
    · exact .inl ⟨rfl, ‹_›⟩
    · exact .inr (Sparse.mem_erase.1 h)

theorem Sparse.pairwise_erase {m : List (Nat × BitVec w)} (a : Nat) (h : (m.map Prod.fst).Pairwise (· < ·)) :
    ((Sparse.erase m a).map Prod.fst).Pairwise (· < ·) := by
  induction m with
  | nil => simp [Sparse.erase]
  | cons c rest ih =>
    obtain ⟨k, v⟩ := c
    simp only [List.map_cons, List.pairwise_cons] at h
    simp only [Sparse.erase]
    split
    · exact ih h.2
    · simp only [List.map_cons, List.pairwise_cons]
      refine ⟨fun b hb => h.1 b ?_, ih h.2⟩
      obtain ⟨c, hc, rfl⟩ := List.mem_map.1 hb
      exact List.mem_map.2 ⟨c, (Sparse.mem_erase.1 hc).1, rfl⟩

theorem Sparse.pairwise_insert {m : List (Nat × BitVec w)} (a : Nat) (v : BitVec w) (hne : ∀ c ∈ m, c.1 ≠ a)
    (h : (m.map Prod.fst).Pairwise (· < ·)) : ((Sparse.insert m a v).map Prod.fst).Pairwise (· < ·) := by
  induction m with
  | nil => simp [Sparse.insert]
  | cons c rest ih =>
    obtain ⟨k, u⟩ := c
    have hk : k ≠ a := hne (k, u) (by simp)
    have hp := h
    simp only [List.map_cons, List.pairwise_cons] at h
    simp only [Sparse.insert]
    split
    · rename_i hlt
      simp only [List.map_cons, List.pairwise_cons, List.mem_cons]
      refine ⟨?_, h.1, h.2⟩
      rintro b (rfl | hb)
      · exact hlt
      · exact hlt.trans (h.1 b hb)
    · simp only [List.map_cons, List.pairwise_cons]
      refine ⟨fun b hb => ?_, ih (fun c hc => hne c (List.mem_cons_of_mem _ hc)) h.2⟩
      obtain ⟨c, hc, rfl⟩ := List.mem_map.1 hb
      rcases Sparse.mem_insert.1 hc with rfl | hc
      · simp only; omega
      · exact h.1 _ (List.mem_map.2 ⟨c, hc, rfl⟩)

/-- A write keeps the canonical form. -/
theorem Sparse.canonical_set {m : List (Nat × BitVec w)} (a : Nat) (v : BitVec w) (h : Sparse.Canonical m) :
    Sparse.Canonical (Sparse.set m a v) := by
  refine ⟨?_, fun c hc => ?_⟩
  · unfold Sparse.set
    split
    · exact Sparse.pairwise_erase a h.1
    · exact Sparse.pairwise_insert a v (fun c hc => (Sparse.mem_erase.1 hc).2) (Sparse.pairwise_erase a h.1)
  · rcases Sparse.mem_set hc with ⟨rfl, hv⟩ | ⟨hm, -⟩
    · exact hv
    · exact h.2 c hm

end Sys2Proof.Machine
end

