-- ==== Sys2Proof/Laws/Fabric.lean ====
section
/-! SUPPORT. The laws of the fabric: bytes after a wide write, the canonical form kept, what a lookup and a physical write answer. -/

namespace Sys2Proof.Machine

/-! ### Bytes -/

theorem Memory.get_set (m : List Host.Cell) (a b : Nat) (v : Byte) :
    Memory.get (Memory.set m a v) b = if b = a then v else Memory.get m b := Sparse.get_set m a b v

/-- A byte below or above the bytes stored is unchanged. -/
theorem Memory.get_writeLE_outside (n : Nat) :
    ∀ (m : List Host.Cell) (a b : Nat) (v : Word), b < a ∨ a + n ≤ b → Memory.get (Memory.writeLE m a n v) b = Memory.get m b := by
  induction n with
  | zero => intros; rfl
  | succ n ih =>
    intro m a b v h
    simp only [Memory.writeLE]
    rw [ih _ _ _ _ (by omega), Memory.get_set, if_neg (by omega)]

/-- Byte `k` of the bytes stored is `v[8k+7 : 8k]`. -/
theorem Memory.get_writeLE_inside (n : Nat) :
    ∀ (m : List Host.Cell) (a k : Nat) (v : Word), k < n →
      Memory.get (Memory.writeLE m a n v) (a + k) = v.extractLsb' (8 * k) 8 := by
  induction n with
  | zero => intro m a k v h; omega
  | succ n ih =>
    intro m a k v h
    simp only [Memory.writeLE]
    cases k with
    | zero =>
      rw [Memory.get_writeLE_outside n _ _ _ _ (by omega), Memory.get_set, if_pos (by omega)]
      ext i hi
      simp
    | succ k =>
      have := ih (Memory.set m a (v.setWidth 8)) (a + 1) k (v >>> 8) (by omega)
      rw [show a + (k + 1) = a + 1 + k by omega, this]
      ext i hi
      simp only [BitVec.getElem_extractLsb', BitVec.getLsbD_ushiftRight]
      congr 1
      omega

/-- A wide write keeps the canonical form where its bytes are 64-bit addresses. -/
theorem Memory.wf_writeLE (n : Nat) :
    ∀ (m : List Host.Cell) (a : Nat) (v : Word), Memory.wf m → a + n ≤ 2 ^ 64 → Memory.wf (Memory.writeLE m a n v) := by
  induction n with
  | zero => intro m a v h _; exact h
  | succ n ih =>
    intro m a v h ha
    refine ih _ _ _ ⟨Sparse.canonical_set _ _ h.1, fun c hc => ?_⟩ (by omega)
    rcases Sparse.mem_set hc with ⟨rfl, -⟩ | ⟨hm, -⟩
    · simp only; omega
    · exact h.2 c hm

/-- A pair of a memory written to lies among the bytes stored or was there before. -/
theorem Memory.mem_writeLE (n : Nat) :
    ∀ (m : List Host.Cell) (a : Nat) (v : Word) (c : Host.Cell), c ∈ Memory.writeLE m a n v →
      (a ≤ c.1 ∧ c.1 < a + n) ∨ c ∈ m := by
  induction n with
  | zero => intro m a v c h; exact .inr h
  | succ n ih =>
    intro m a v c h
    rcases ih _ _ _ _ h with h | h
    · exact .inl (by omega)
    · rcases Sparse.mem_set h with ⟨rfl, -⟩ | ⟨hm, -⟩
      · exact .inl ⟨by simp, by simp⟩
      · exact .inr hm

/-- A wide read depends only on the bytes it reads. -/
theorem Memory.readLE_congr (n : Nat) :
    ∀ (m m' : List Host.Cell) (a : Nat), (∀ k, k < n → Memory.get m (a + k) = Memory.get m' (a + k)) →
      Memory.readLE m a n = Memory.readLE m' a n := by
  induction n with
  | zero => intros; rfl
  | succ n ih =>
    intro m m' a h
    simp only [Memory.readLE]
    rw [ih m m' (a + 1) fun k hk => by simpa [Nat.add_assoc, Nat.add_comm 1 k] using h (k + 1) (by omega)]
    rw [show Memory.get m a = Memory.get m' a from h 0 (by omega)]

/-! ### Lookup -/

/-- No region is selected only where every base lies above the address. -/
theorem selectRegion_none {rs : List Region} {pa : Nat} (h : selectRegion rs pa = none) : ∀ q ∈ rs, pa < q.base := by
  induction rs with
  | nil => simp
  | cons q rest ih =>
    simp only [selectRegion] at h
    split at h
    · rename_i hn
      intro p hp
      rcases List.mem_cons.1 hp with rfl | hp
      · split at h <;> simp_all
      · exact ih hn p hp
    · split at h <;> simp at h

/-- The region selected is in the list, starts at or below the address, and no other such region starts higher. -/
theorem selectRegion_some {rs : List Region} {pa : Nat} {r : Region} (h : selectRegion rs pa = some r) :
    r ∈ rs ∧ r.base ≤ pa ∧ ∀ q ∈ rs, q.base ≤ pa → q.base ≤ r.base := by
  induction rs generalizing r with
  | nil => simp [selectRegion] at h
  | cons q rest ih =>
    simp only [selectRegion] at h
    split at h
    · rename_i hn
      split at h
      · cases h
        refine ⟨by simp, ‹_›, fun p hp hle => ?_⟩
        rcases List.mem_cons.1 hp with rfl | hp
        · exact le_rfl
        · have := selectRegion_none hn p hp; omega
      · simp at h
    · rename_i b hb
      obtain ⟨hm, hle, hmax⟩ := ih hb
      split at h
      · cases h
        rename_i hc
        refine ⟨by simp, hc.1, fun p hp hpa => ?_⟩
        rcases List.mem_cons.1 hp with rfl | hp
        · exact le_rfl
        · exact (hmax p hp hpa).trans hc.2.le
      · cases h
        rename_i hc
        refine ⟨by simp [hm], hle, fun p hp hpa => ?_⟩
        rcases List.mem_cons.1 hp with rfl | hp
        · by_contra hcon
          exact hc ⟨hpa, by omega⟩
        · exact hmax p hp hpa

/-- What a lookup that hits says. -/
theorem lookup_some {rs : List Region} {pa n : Nat} {r : Region} (h : lookup rs pa n = some r) :
    r ∈ rs ∧ r.base ≤ pa ∧ (∀ q ∈ rs, q.base ≤ pa → q.base ≤ r.base) ∧ pa + n ≤ r.base + r.length := by
  unfold lookup at h
  split at h
  · simp at h
  · rename_i q hq
    split at h
    · cases h
      obtain ⟨h1, h2, h3⟩ := selectRegion_some hq
      exact ⟨h1, h2, h3, ‹_›⟩
    · simp at h

/-- An access is backed by some region that holds all of it. -/
theorem backed_region {rs : List Region} {pa n : Nat} (h : backed rs pa n = true) :
    ∃ r ∈ rs, r.base ≤ pa ∧ pa + n ≤ r.base + r.length := by
  obtain ⟨r, hr⟩ := Option.isSome_iff_exists.1 h
  obtain ⟨h1, h2, -, h4⟩ := lookup_some hr
  exact ⟨r, h1, h2, h4⟩

theorem legalRegions_mem {rs : List Region} (h : legalRegions rs = true) {r : Region} (hr : r ∈ rs) :
    1 ≤ r.length ∧ r.base + r.length ≤ 2 ^ 64 := by
  induction rs with
  | nil => simp at hr
  | cons q rest ih =>
    simp only [legalRegions, legalRegion, Bool.and_eq_true, decide_eq_true_eq] at h
    rcases List.mem_cons.1 hr with rfl | hr
    · exact h.1.1
    · exact ih h.2 hr

/-- In a legal map two regions with an address in common are the same region. -/
theorem legalRegions_unique {rs : List Region} (h : legalRegions rs = true) {r q : Region} (hr : r ∈ rs) (hq : q ∈ rs)
    {a : Nat} (h1 : r.base ≤ a) (h2 : a < r.base + r.length) (h3 : q.base ≤ a) (h4 : a < q.base + q.length) : r = q := by
  induction rs with
  | nil => simp at hr
  | cons p rest ih =>
    simp only [legalRegions, disjointRegions, Bool.and_eq_true, List.all_eq_true, Bool.or_eq_true, decide_eq_true_eq] at h
    rcases List.mem_cons.1 hr with rfl | hr' <;> rcases List.mem_cons.1 hq with rfl | hq'
    · rfl
    · have := h.1.2 q hq'; omega
    · have := h.1.2 r hr'; omega
    · exact ih h.2 hr' hq'

/-- In a legal map an access is backed exactly where one region holds all of it. -/
theorem backed_of_region {rs : List Region} (h : legalRegions rs = true) {r : Region} (hr : r ∈ rs) {pa n : Nat} (hn : 1 ≤ n)
    (h1 : r.base ≤ pa) (h2 : pa + n ≤ r.base + r.length) : backed rs pa n = true := by
  unfold backed lookup
  cases hs : selectRegion rs pa with
  | none => have := selectRegion_none hs r hr; omega
  | some q =>
    obtain ⟨hq, hle, hmax⟩ := selectRegion_some hs
    have hb := hmax r hr h1
    have hl := (legalRegions_mem h hq).1
    have heq : q = r := by
      by_cases hc : pa < q.base + q.length
      · exact legalRegions_unique h hq hr hle hc h1 (by omega)
      · exact legalRegions_unique h hq hr (a := q.base) le_rfl (by omega) hb (by omega)
    subst heq
    simp [h2]

/-! ### The port -/

/-- What a physical write that succeeds says: the access is backed and only memory changed. -/
theorem State.physWrite_some {s t : State} {pa : Word} {w : Width} {v : Word} (h : s.physWrite pa w v = some t) :
    backed s.params.regions pa.toNat w.bytes = true ∧ t = { s with mem := Memory.writeLE s.mem pa.toNat w.bytes v } := by
  unfold State.physWrite at h
  split at h
  · cases h; exact ⟨‹_›, rfl⟩
  · simp at h

/-- What a physical read that succeeds says. -/
theorem State.physRead_some {s : State} {pa : Word} {w : Width} {v : Word} (h : s.physRead pa w = some v) :
    backed s.params.regions pa.toNat w.bytes = true ∧ v = Memory.readLE s.mem pa.toNat w.bytes := by
  unfold State.physRead at h
  split at h
  · cases h; exact ⟨‹_›, rfl⟩
  · simp at h

end Sys2Proof.Machine
end

