-- ==== Sys2Proof/Laws/Mmu.lean ====
section
/-! SUPPORT. What the load and store paths can answer, said once. -/

namespace Sys2Proof.Machine

/-- How a load path ends (20_memory R92). -/
theorem State.memRead_cases (s : State) (va : Word) (w : Width) :
    (s.translate va = .unsupported ∧ s.memRead va w = .notImplemented) ∨
    ((s.translate va = .fail ∨ ∃ pa wr x, s.translate va = .ok pa false wr x) ∧ s.memRead va w = .raised (.loadPageFault va)) ∨
    (∃ pa wr x, s.translate va = .ok pa true wr x ∧ backed s.params.regions pa.toNat w.bytes = false ∧
      s.memRead va w = .raised (.loadAccessFault va)) ∨
    (∃ pa wr x, s.translate va = .ok pa true wr x ∧ backed s.params.regions pa.toNat w.bytes = true ∧
      s.memRead va w = .done (Memory.readLE s.mem pa.toNat w.bytes)) := by
  unfold State.memRead State.physRead
  cases s.translate va with
  | unsupported => exact .inl ⟨rfl, rfl⟩
  | fail => exact .inr (.inl ⟨.inl rfl, rfl⟩)
  | ok pa r wr x =>
    cases r with
    | false => exact .inr (.inl ⟨.inr ⟨pa, wr, x, rfl⟩, rfl⟩)
    | true =>
      cases hb : backed s.params.regions pa.toNat w.bytes with
      | false => exact .inr (.inr (.inl ⟨pa, wr, x, rfl, hb, by simp [hb]⟩))
      | true => exact .inr (.inr (.inr ⟨pa, wr, x, rfl, hb, by simp [hb]⟩))

/-- How a store path ends (20_memory R93). -/
theorem State.memWrite_cases (s : State) (va : Word) (w : Width) (v : Word) :
    (s.translate va = .unsupported ∧ s.memWrite va w v = .notImplemented) ∨
    ((s.translate va = .fail ∨ ∃ pa r x, s.translate va = .ok pa r false x) ∧ s.memWrite va w v = .raised (.storePageFault va)) ∨
    (∃ pa r x, s.translate va = .ok pa r true x ∧ backed s.params.regions pa.toNat w.bytes = false ∧
      s.memWrite va w v = .raised (.storeAccessFault va)) ∨
    (∃ pa r x, s.translate va = .ok pa r true x ∧ backed s.params.regions pa.toNat w.bytes = true ∧
      s.memWrite va w v = .done { s with mem := Memory.writeLE s.mem pa.toNat w.bytes v }) := by
  unfold State.memWrite State.physWrite
  cases s.translate va with
  | unsupported => exact .inl ⟨rfl, rfl⟩
  | fail => exact .inr (.inl ⟨.inl rfl, rfl⟩)
  | ok pa r wr x =>
    cases wr with
    | false => exact .inr (.inl ⟨.inr ⟨pa, r, x, rfl⟩, rfl⟩)
    | true =>
      cases hb : backed s.params.regions pa.toNat w.bytes with
      | false => exact .inr (.inr (.inl ⟨pa, r, x, rfl, hb, by simp [hb]⟩))
      | true => exact .inr (.inr (.inr ⟨pa, r, x, rfl, hb, by simp [hb]⟩))

/-- The walk reads `satp`, the parameters and memory alone: more exactly, the physical reads. -/
theorem State.walk_congr {s t : State} (hp : t.params = s.params) (hm : t.mem = s.mem) (va : Word) (n : Nat) :
    ∀ a, t.walk va n a = s.walk va n a := by
  induction n with
  | zero => intro a; rfl
  | succ n ih =>
    intro a
    simp only [State.walk, State.physRead, hp, hm, ih]

theorem State.translate_congr {s t : State} (hp : t.params = s.params) (hm : t.mem = s.mem) (hs : t.satp = s.satp) (va : Word) :
    t.translate va = s.translate va := by
  unfold State.translate
  rw [hp, hs]
  split
  · rfl
  · rename_i m _
    cases m <;> simp only [State.translateIn, hs, State.walk_congr hp hm]

end Sys2Proof.Machine
end

