-- ==== Sys2Proof/Laws/State.lean ====
section
/-! SUPPORT. What each named update of the state does to each field: one lemma per field per update, so that no later proof unfolds a
record update. -/

namespace Sys2Proof.Machine

/-! ### setX -/

@[simp] theorem State.setX_params (s : State) (i : Reg) (v : Word) : (s.setX i v).params = s.params := by unfold State.setX; split <;> rfl
@[simp] theorem State.setX_pc (s : State) (i : Reg) (v : Word) : (s.setX i v).pc = s.pc := by unfold State.setX; split <;> rfl
@[simp] theorem State.setX_priv (s : State) (i : Reg) (v : Word) : (s.setX i v).priv = s.priv := by unfold State.setX; split <;> rfl
@[simp] theorem State.setX_mstatus (s : State) (i : Reg) (v : Word) : (s.setX i v).mstatus = s.mstatus := by unfold State.setX; split <;> rfl
@[simp] theorem State.setX_misa (s : State) (i : Reg) (v : Word) : (s.setX i v).misa = s.misa := by unfold State.setX; split <;> rfl
@[simp] theorem State.setX_mie (s : State) (i : Reg) (v : Word) : (s.setX i v).mie = s.mie := by unfold State.setX; split <;> rfl
@[simp] theorem State.setX_mtvec (s : State) (i : Reg) (v : Word) : (s.setX i v).mtvec = s.mtvec := by unfold State.setX; split <;> rfl
@[simp] theorem State.setX_mepc (s : State) (i : Reg) (v : Word) : (s.setX i v).mepc = s.mepc := by unfold State.setX; split <;> rfl
@[simp] theorem State.setX_mcause (s : State) (i : Reg) (v : Word) : (s.setX i v).mcause = s.mcause := by unfold State.setX; split <;> rfl
@[simp] theorem State.setX_mtval (s : State) (i : Reg) (v : Word) : (s.setX i v).mtval = s.mtval := by unfold State.setX; split <;> rfl
@[simp] theorem State.setX_mip (s : State) (i : Reg) (v : Word) : (s.setX i v).mip = s.mip := by unfold State.setX; split <;> rfl
@[simp] theorem State.setX_mhartid (s : State) (i : Reg) (v : Word) : (s.setX i v).mhartid = s.mhartid := by unfold State.setX; split <;> rfl
@[simp] theorem State.setX_satp (s : State) (i : Reg) (v : Word) : (s.setX i v).satp = s.satp := by unfold State.setX; split <;> rfl
@[simp] theorem State.setX_csrs (s : State) (i : Reg) (v : Word) : (s.setX i v).csrs = s.csrs := by unfold State.setX; split <;> rfl
@[simp] theorem State.setX_mem (s : State) (i : Reg) (v : Word) : (s.setX i v).mem = s.mem := by unfold State.setX; split <;> rfl
@[simp] theorem State.setX_faultOut (s : State) (i : Reg) (v : Word) : (s.setX i v).faultOut = s.faultOut := by unfold State.setX; split <;> rfl
@[simp] theorem State.setX_debugTrap (s : State) (i : Reg) (v : Word) : (s.setX i v).debugTrap = s.debugTrap := by unfold State.setX; split <;> rfl
@[simp] theorem State.setX_instrOut (s : State) (i : Reg) (v : Word) : (s.setX i v).instrOut = s.instrOut := by unfold State.setX; split <;> rfl

/-! ### setPc -/

@[simp] theorem State.setPc_params (s : State) (t : Word) : (s.setPc t).params = s.params := rfl
@[simp] theorem State.setPc_gpr (s : State) (t : Word) : (s.setPc t).gpr = s.gpr := rfl
@[simp] theorem State.setPc_pc (s : State) (t : Word) : (s.setPc t).pc = t := rfl
@[simp] theorem State.setPc_priv (s : State) (t : Word) : (s.setPc t).priv = s.priv := rfl
@[simp] theorem State.setPc_mstatus (s : State) (t : Word) : (s.setPc t).mstatus = s.mstatus := rfl
@[simp] theorem State.setPc_misa (s : State) (t : Word) : (s.setPc t).misa = s.misa := rfl
@[simp] theorem State.setPc_mie (s : State) (t : Word) : (s.setPc t).mie = s.mie := rfl
@[simp] theorem State.setPc_mtvec (s : State) (t : Word) : (s.setPc t).mtvec = s.mtvec := rfl
@[simp] theorem State.setPc_mepc (s : State) (t : Word) : (s.setPc t).mepc = s.mepc := rfl
@[simp] theorem State.setPc_mcause (s : State) (t : Word) : (s.setPc t).mcause = s.mcause := rfl
@[simp] theorem State.setPc_mtval (s : State) (t : Word) : (s.setPc t).mtval = s.mtval := rfl
@[simp] theorem State.setPc_mip (s : State) (t : Word) : (s.setPc t).mip = s.mip := rfl
@[simp] theorem State.setPc_mhartid (s : State) (t : Word) : (s.setPc t).mhartid = s.mhartid := rfl
@[simp] theorem State.setPc_satp (s : State) (t : Word) : (s.setPc t).satp = s.satp := rfl
@[simp] theorem State.setPc_csrs (s : State) (t : Word) : (s.setPc t).csrs = s.csrs := rfl
@[simp] theorem State.setPc_mem (s : State) (t : Word) : (s.setPc t).mem = s.mem := rfl
@[simp] theorem State.setPc_faultOut (s : State) (t : Word) : (s.setPc t).faultOut = s.faultOut := rfl
@[simp] theorem State.setPc_debugTrap (s : State) (t : Word) : (s.setPc t).debugTrap = s.debugTrap := rfl
@[simp] theorem State.setPc_instrOut (s : State) (t : Word) : (s.setPc t).instrOut = s.instrOut := rfl

/-! ### advance -/

@[simp] theorem State.advance_params (s : State) : s.advance.params = s.params := rfl
@[simp] theorem State.advance_gpr (s : State) : s.advance.gpr = s.gpr := rfl
@[simp] theorem State.advance_pc (s : State) : s.advance.pc = s.pc + 4#64 := rfl
@[simp] theorem State.advance_priv (s : State) : s.advance.priv = s.priv := rfl
@[simp] theorem State.advance_mstatus (s : State) : s.advance.mstatus = s.mstatus := rfl
@[simp] theorem State.advance_misa (s : State) : s.advance.misa = s.misa := rfl
@[simp] theorem State.advance_mie (s : State) : s.advance.mie = s.mie := rfl
@[simp] theorem State.advance_mtvec (s : State) : s.advance.mtvec = s.mtvec := rfl
@[simp] theorem State.advance_mepc (s : State) : s.advance.mepc = s.mepc := rfl
@[simp] theorem State.advance_mcause (s : State) : s.advance.mcause = s.mcause := rfl
@[simp] theorem State.advance_mtval (s : State) : s.advance.mtval = s.mtval := rfl
@[simp] theorem State.advance_mip (s : State) : s.advance.mip = s.mip := rfl
@[simp] theorem State.advance_mhartid (s : State) : s.advance.mhartid = s.mhartid := rfl
@[simp] theorem State.advance_satp (s : State) : s.advance.satp = s.satp := rfl
@[simp] theorem State.advance_csrs (s : State) : s.advance.csrs = s.csrs := rfl
@[simp] theorem State.advance_mem (s : State) : s.advance.mem = s.mem := rfl
@[simp] theorem State.advance_faultOut (s : State) : s.advance.faultOut = s.faultOut := rfl
@[simp] theorem State.advance_debugTrap (s : State) : s.advance.debugTrap = s.debugTrap := rfl
@[simp] theorem State.advance_instrOut (s : State) : s.advance.instrOut = s.instrOut := rfl

/-! ### retire -/

@[simp] theorem State.retire_params (s : State) (rd : Reg) (v : Word) : (s.retire rd v).params = s.params := by simp [State.retire]
@[simp] theorem State.retire_gpr (s : State) (rd : Reg) (v : Word) : (s.retire rd v).gpr = (s.setX rd v).gpr := rfl
@[simp] theorem State.retire_pc (s : State) (rd : Reg) (v : Word) : (s.retire rd v).pc = s.pc + 4#64 := by simp [State.retire]
@[simp] theorem State.retire_priv (s : State) (rd : Reg) (v : Word) : (s.retire rd v).priv = s.priv := by simp [State.retire]
@[simp] theorem State.retire_mstatus (s : State) (rd : Reg) (v : Word) : (s.retire rd v).mstatus = s.mstatus := by simp [State.retire]
@[simp] theorem State.retire_misa (s : State) (rd : Reg) (v : Word) : (s.retire rd v).misa = s.misa := by simp [State.retire]
@[simp] theorem State.retire_mie (s : State) (rd : Reg) (v : Word) : (s.retire rd v).mie = s.mie := by simp [State.retire]
@[simp] theorem State.retire_mtvec (s : State) (rd : Reg) (v : Word) : (s.retire rd v).mtvec = s.mtvec := by simp [State.retire]
@[simp] theorem State.retire_mepc (s : State) (rd : Reg) (v : Word) : (s.retire rd v).mepc = s.mepc := by simp [State.retire]
@[simp] theorem State.retire_mcause (s : State) (rd : Reg) (v : Word) : (s.retire rd v).mcause = s.mcause := by simp [State.retire]
@[simp] theorem State.retire_mtval (s : State) (rd : Reg) (v : Word) : (s.retire rd v).mtval = s.mtval := by simp [State.retire]
@[simp] theorem State.retire_mip (s : State) (rd : Reg) (v : Word) : (s.retire rd v).mip = s.mip := by simp [State.retire]
@[simp] theorem State.retire_mhartid (s : State) (rd : Reg) (v : Word) : (s.retire rd v).mhartid = s.mhartid := by simp [State.retire]
@[simp] theorem State.retire_satp (s : State) (rd : Reg) (v : Word) : (s.retire rd v).satp = s.satp := by simp [State.retire]
@[simp] theorem State.retire_csrs (s : State) (rd : Reg) (v : Word) : (s.retire rd v).csrs = s.csrs := by simp [State.retire]
@[simp] theorem State.retire_mem (s : State) (rd : Reg) (v : Word) : (s.retire rd v).mem = s.mem := by simp [State.retire]
@[simp] theorem State.retire_faultOut (s : State) (rd : Reg) (v : Word) : (s.retire rd v).faultOut = s.faultOut := by simp [State.retire]
@[simp] theorem State.retire_debugTrap (s : State) (rd : Reg) (v : Word) : (s.retire rd v).debugTrap = s.debugTrap := by simp [State.retire]
@[simp] theorem State.retire_instrOut (s : State) (rd : Reg) (v : Word) : (s.retire rd v).instrOut = s.instrOut := by simp [State.retire]

/-! ### setCsr -/

@[simp] theorem State.setCsr_params (s : State) (a : CsrAddr) (v : Word) : (s.setCsr a v).params = s.params := by unfold State.setCsr; split <;> rfl
@[simp] theorem State.setCsr_gpr (s : State) (a : CsrAddr) (v : Word) : (s.setCsr a v).gpr = s.gpr := by unfold State.setCsr; split <;> rfl
@[simp] theorem State.setCsr_pc (s : State) (a : CsrAddr) (v : Word) : (s.setCsr a v).pc = s.pc := by unfold State.setCsr; split <;> rfl
@[simp] theorem State.setCsr_priv (s : State) (a : CsrAddr) (v : Word) : (s.setCsr a v).priv = s.priv := by unfold State.setCsr; split <;> rfl
@[simp] theorem State.setCsr_mem (s : State) (a : CsrAddr) (v : Word) : (s.setCsr a v).mem = s.mem := by unfold State.setCsr; split <;> rfl
@[simp] theorem State.setCsr_faultOut (s : State) (a : CsrAddr) (v : Word) : (s.setCsr a v).faultOut = s.faultOut := by unfold State.setCsr; split <;> rfl
@[simp] theorem State.setCsr_debugTrap (s : State) (a : CsrAddr) (v : Word) : (s.setCsr a v).debugTrap = s.debugTrap := by unfold State.setCsr; split <;> rfl
@[simp] theorem State.setCsr_instrOut (s : State) (a : CsrAddr) (v : Word) : (s.setCsr a v).instrOut = s.instrOut := by unfold State.setCsr; split <;> rfl

/-! ### enterTrap -/

@[simp] theorem State.enterTrap_params (s : State) (e : Exception) : (s.enterTrap e).params = s.params := rfl
@[simp] theorem State.enterTrap_gpr (s : State) (e : Exception) : (s.enterTrap e).gpr = s.gpr := rfl
@[simp] theorem State.enterTrap_pc (s : State) (e : Exception) : (s.enterTrap e).pc = trapTarget s.mtvec := rfl
@[simp] theorem State.enterTrap_priv (s : State) (e : Exception) : (s.enterTrap e).priv = .machine := rfl
@[simp] theorem State.enterTrap_mstatus (s : State) (e : Exception) : (s.enterTrap e).mstatus = mstatusOnTrap s.mstatus s.priv := rfl
@[simp] theorem State.enterTrap_misa (s : State) (e : Exception) : (s.enterTrap e).misa = s.misa := rfl
@[simp] theorem State.enterTrap_mie (s : State) (e : Exception) : (s.enterTrap e).mie = s.mie := rfl
@[simp] theorem State.enterTrap_mtvec (s : State) (e : Exception) : (s.enterTrap e).mtvec = s.mtvec := rfl
@[simp] theorem State.enterTrap_mepc (s : State) (e : Exception) : (s.enterTrap e).mepc = s.pc := rfl
@[simp] theorem State.enterTrap_mcause (s : State) (e : Exception) : (s.enterTrap e).mcause = e.code := rfl
@[simp] theorem State.enterTrap_mtval (s : State) (e : Exception) : (s.enterTrap e).mtval = e.trapValue := rfl
@[simp] theorem State.enterTrap_mip (s : State) (e : Exception) : (s.enterTrap e).mip = s.mip := rfl
@[simp] theorem State.enterTrap_mhartid (s : State) (e : Exception) : (s.enterTrap e).mhartid = s.mhartid := rfl
@[simp] theorem State.enterTrap_satp (s : State) (e : Exception) : (s.enterTrap e).satp = s.satp := rfl
@[simp] theorem State.enterTrap_csrs (s : State) (e : Exception) : (s.enterTrap e).csrs = s.csrs := rfl
@[simp] theorem State.enterTrap_mem (s : State) (e : Exception) : (s.enterTrap e).mem = s.mem := rfl
@[simp] theorem State.enterTrap_faultOut (s : State) (e : Exception) : (s.enterTrap e).faultOut = s.faultOut := rfl
@[simp] theorem State.enterTrap_debugTrap (s : State) (e : Exception) : (s.enterTrap e).debugTrap = s.debugTrap := rfl
@[simp] theorem State.enterTrap_instrOut (s : State) (e : Exception) : (s.enterTrap e).instrOut = s.instrOut := rfl

/-! ### report -/

@[simp] theorem State.report_params (s : State) (e : Exception) : (s.report e).params = s.params := rfl
@[simp] theorem State.report_gpr (s : State) (e : Exception) : (s.report e).gpr = s.gpr := rfl
@[simp] theorem State.report_pc (s : State) (e : Exception) : (s.report e).pc = s.pc := rfl
@[simp] theorem State.report_priv (s : State) (e : Exception) : (s.report e).priv = s.priv := rfl
@[simp] theorem State.report_mstatus (s : State) (e : Exception) : (s.report e).mstatus = s.mstatus := rfl
@[simp] theorem State.report_misa (s : State) (e : Exception) : (s.report e).misa = s.misa := rfl
@[simp] theorem State.report_mie (s : State) (e : Exception) : (s.report e).mie = s.mie := rfl
@[simp] theorem State.report_mtvec (s : State) (e : Exception) : (s.report e).mtvec = s.mtvec := rfl
@[simp] theorem State.report_mepc (s : State) (e : Exception) : (s.report e).mepc = s.mepc := rfl
@[simp] theorem State.report_mcause (s : State) (e : Exception) : (s.report e).mcause = s.mcause := rfl
@[simp] theorem State.report_mtval (s : State) (e : Exception) : (s.report e).mtval = s.mtval := rfl
@[simp] theorem State.report_mip (s : State) (e : Exception) : (s.report e).mip = s.mip := rfl
@[simp] theorem State.report_mhartid (s : State) (e : Exception) : (s.report e).mhartid = s.mhartid := rfl
@[simp] theorem State.report_satp (s : State) (e : Exception) : (s.report e).satp = s.satp := rfl
@[simp] theorem State.report_csrs (s : State) (e : Exception) : (s.report e).csrs = s.csrs := rfl
@[simp] theorem State.report_mem (s : State) (e : Exception) : (s.report e).mem = s.mem := rfl
@[simp] theorem State.report_faultOut (s : State) (e : Exception) : (s.report e).faultOut = some e := rfl
@[simp] theorem State.report_debugTrap (s : State) (e : Exception) : (s.report e).debugTrap = decide (e = .breakpoint) := rfl
@[simp] theorem State.report_instrOut (s : State) (e : Exception) : (s.report e).instrOut = s.instrOut := rfl

/-! ### raise -/

@[simp] theorem State.raise_params (s : State) (e : Exception) : (s.raise e).params = s.params := by unfold State.raise State.trapEntry; split <;> rfl
@[simp] theorem State.raise_gpr (s : State) (e : Exception) : (s.raise e).gpr = s.gpr := by unfold State.raise State.trapEntry; split <;> rfl
@[simp] theorem State.raise_misa (s : State) (e : Exception) : (s.raise e).misa = s.misa := by unfold State.raise State.trapEntry; split <;> rfl
@[simp] theorem State.raise_mie (s : State) (e : Exception) : (s.raise e).mie = s.mie := by unfold State.raise State.trapEntry; split <;> rfl
@[simp] theorem State.raise_mtvec (s : State) (e : Exception) : (s.raise e).mtvec = s.mtvec := by unfold State.raise State.trapEntry; split <;> rfl
@[simp] theorem State.raise_mip (s : State) (e : Exception) : (s.raise e).mip = s.mip := by unfold State.raise State.trapEntry; split <;> rfl
@[simp] theorem State.raise_mhartid (s : State) (e : Exception) : (s.raise e).mhartid = s.mhartid := by unfold State.raise State.trapEntry; split <;> rfl
@[simp] theorem State.raise_satp (s : State) (e : Exception) : (s.raise e).satp = s.satp := by unfold State.raise State.trapEntry; split <;> rfl
@[simp] theorem State.raise_csrs (s : State) (e : Exception) : (s.raise e).csrs = s.csrs := by unfold State.raise State.trapEntry; split <;> rfl
@[simp] theorem State.raise_mem (s : State) (e : Exception) : (s.raise e).mem = s.mem := by unfold State.raise State.trapEntry; split <;> rfl
@[simp] theorem State.raise_faultOut (s : State) (e : Exception) : (s.raise e).faultOut = some e := by unfold State.raise State.trapEntry; split <;> rfl
@[simp] theorem State.raise_debugTrap (s : State) (e : Exception) : (s.raise e).debugTrap = decide (e = .breakpoint) := by unfold State.raise State.trapEntry; split <;> rfl
@[simp] theorem State.raise_instrOut (s : State) (e : Exception) : (s.raise e).instrOut = s.instrOut := by unfold State.raise State.trapEntry; split <;> rfl

/-! ### returnFromTrap -/

@[simp] theorem State.returnFromTrap_params (s : State) : s.returnFromTrap.params = s.params := rfl
@[simp] theorem State.returnFromTrap_gpr (s : State) : s.returnFromTrap.gpr = s.gpr := rfl
@[simp] theorem State.returnFromTrap_pc (s : State) : s.returnFromTrap.pc = s.mepc := rfl
@[simp] theorem State.returnFromTrap_priv (s : State) : s.returnFromTrap.priv = decodeMode (mstatusMpp s.mstatus) := rfl
@[simp] theorem State.returnFromTrap_mstatus (s : State) : s.returnFromTrap.mstatus = mstatusOnReturn s.mstatus := rfl
@[simp] theorem State.returnFromTrap_misa (s : State) : s.returnFromTrap.misa = s.misa := rfl
@[simp] theorem State.returnFromTrap_mie (s : State) : s.returnFromTrap.mie = s.mie := rfl
@[simp] theorem State.returnFromTrap_mtvec (s : State) : s.returnFromTrap.mtvec = s.mtvec := rfl
@[simp] theorem State.returnFromTrap_mepc (s : State) : s.returnFromTrap.mepc = s.mepc := rfl
@[simp] theorem State.returnFromTrap_mcause (s : State) : s.returnFromTrap.mcause = s.mcause := rfl
@[simp] theorem State.returnFromTrap_mtval (s : State) : s.returnFromTrap.mtval = s.mtval := rfl
@[simp] theorem State.returnFromTrap_mip (s : State) : s.returnFromTrap.mip = s.mip := rfl
@[simp] theorem State.returnFromTrap_mhartid (s : State) : s.returnFromTrap.mhartid = s.mhartid := rfl
@[simp] theorem State.returnFromTrap_satp (s : State) : s.returnFromTrap.satp = s.satp := rfl
@[simp] theorem State.returnFromTrap_csrs (s : State) : s.returnFromTrap.csrs = s.csrs := rfl
@[simp] theorem State.returnFromTrap_mem (s : State) : s.returnFromTrap.mem = s.mem := rfl
@[simp] theorem State.returnFromTrap_faultOut (s : State) : s.returnFromTrap.faultOut = s.faultOut := rfl
@[simp] theorem State.returnFromTrap_debugTrap (s : State) : s.returnFromTrap.debugTrap = s.debugTrap := rfl
@[simp] theorem State.returnFromTrap_instrOut (s : State) : s.returnFromTrap.instrOut = s.instrOut := rfl

/-! ### beginStep -/

@[simp] theorem State.beginStep_params (s : State) : s.beginStep.params = s.params := rfl
@[simp] theorem State.beginStep_gpr (s : State) : s.beginStep.gpr = s.gpr := rfl
@[simp] theorem State.beginStep_pc (s : State) : s.beginStep.pc = s.pc := rfl
@[simp] theorem State.beginStep_priv (s : State) : s.beginStep.priv = s.priv := rfl
@[simp] theorem State.beginStep_mstatus (s : State) : s.beginStep.mstatus = s.mstatus := rfl
@[simp] theorem State.beginStep_misa (s : State) : s.beginStep.misa = s.misa := rfl
@[simp] theorem State.beginStep_mie (s : State) : s.beginStep.mie = s.mie := rfl
@[simp] theorem State.beginStep_mtvec (s : State) : s.beginStep.mtvec = s.mtvec := rfl
@[simp] theorem State.beginStep_mepc (s : State) : s.beginStep.mepc = s.mepc := rfl
@[simp] theorem State.beginStep_mcause (s : State) : s.beginStep.mcause = s.mcause := rfl
@[simp] theorem State.beginStep_mtval (s : State) : s.beginStep.mtval = s.mtval := rfl
@[simp] theorem State.beginStep_mip (s : State) : s.beginStep.mip = s.mip := rfl
@[simp] theorem State.beginStep_mhartid (s : State) : s.beginStep.mhartid = s.mhartid := rfl
@[simp] theorem State.beginStep_satp (s : State) : s.beginStep.satp = s.satp := rfl
@[simp] theorem State.beginStep_csrs (s : State) : s.beginStep.csrs = s.csrs := rfl
@[simp] theorem State.beginStep_mem (s : State) : s.beginStep.mem = s.mem := rfl
@[simp] theorem State.beginStep_faultOut (s : State) : s.beginStep.faultOut = none := rfl
@[simp] theorem State.beginStep_debugTrap (s : State) : s.beginStep.debugTrap = false := rfl
@[simp] theorem State.beginStep_instrOut (s : State) : s.beginStep.instrOut = s.instrOut := rfl

/-! ### latchInstr -/

@[simp] theorem State.latchInstr_params (s : State) (w : InstrWord) : (s.latchInstr w).params = s.params := rfl
@[simp] theorem State.latchInstr_gpr (s : State) (w : InstrWord) : (s.latchInstr w).gpr = s.gpr := rfl
@[simp] theorem State.latchInstr_pc (s : State) (w : InstrWord) : (s.latchInstr w).pc = s.pc := rfl
@[simp] theorem State.latchInstr_priv (s : State) (w : InstrWord) : (s.latchInstr w).priv = s.priv := rfl
@[simp] theorem State.latchInstr_mstatus (s : State) (w : InstrWord) : (s.latchInstr w).mstatus = s.mstatus := rfl
@[simp] theorem State.latchInstr_misa (s : State) (w : InstrWord) : (s.latchInstr w).misa = s.misa := rfl
@[simp] theorem State.latchInstr_mie (s : State) (w : InstrWord) : (s.latchInstr w).mie = s.mie := rfl
@[simp] theorem State.latchInstr_mtvec (s : State) (w : InstrWord) : (s.latchInstr w).mtvec = s.mtvec := rfl
@[simp] theorem State.latchInstr_mepc (s : State) (w : InstrWord) : (s.latchInstr w).mepc = s.mepc := rfl
@[simp] theorem State.latchInstr_mcause (s : State) (w : InstrWord) : (s.latchInstr w).mcause = s.mcause := rfl
@[simp] theorem State.latchInstr_mtval (s : State) (w : InstrWord) : (s.latchInstr w).mtval = s.mtval := rfl
@[simp] theorem State.latchInstr_mip (s : State) (w : InstrWord) : (s.latchInstr w).mip = s.mip := rfl
@[simp] theorem State.latchInstr_mhartid (s : State) (w : InstrWord) : (s.latchInstr w).mhartid = s.mhartid := rfl
@[simp] theorem State.latchInstr_satp (s : State) (w : InstrWord) : (s.latchInstr w).satp = s.satp := rfl
@[simp] theorem State.latchInstr_csrs (s : State) (w : InstrWord) : (s.latchInstr w).csrs = s.csrs := rfl
@[simp] theorem State.latchInstr_mem (s : State) (w : InstrWord) : (s.latchInstr w).mem = s.mem := rfl
@[simp] theorem State.latchInstr_faultOut (s : State) (w : InstrWord) : (s.latchInstr w).faultOut = s.faultOut := rfl
@[simp] theorem State.latchInstr_debugTrap (s : State) (w : InstrWord) : (s.latchInstr w).debugTrap = s.debugTrap := rfl
@[simp] theorem State.latchInstr_instrOut (s : State) (w : InstrWord) : (s.latchInstr w).instrOut = w := rfl

end Sys2Proof.Machine
end

