-- ==== Sys2Proof/Laws/Ops.lean ====
section
/-! SUPPORT. The laws of the register file, the CSR bank, the `mstatus` fields and trap entry, each stated once over the reads `x` and
`csr`. -/

namespace Sys2Proof.Machine

/-! ### General registers -/

@[simp] theorem State.x_zero (s : State) : s.x 0#5 = 0#64 := rfl

theorem State.x_ne_zero (s : State) {i : Reg} (h : i ≠ 0#5) : s.x i = s.gpr[i.toNat] := by simp [State.x, h]

/-- A read after a register write. -/
theorem State.x_setX (s : State) (i r : Reg) (v : Word) :
    (s.setX i v).x r = if r = i ∧ r ≠ 0#5 then v else s.x r := by
  by_cases hr : r = 0#5
  · simp [State.x, hr]
  · by_cases hi : i = 0#5
    · subst hi
      simp [State.setX, hr]
    · have hset : (s.setX i v).gpr = s.gpr.set i.toNat v := by simp [State.setX, hi]
      simp only [State.x_ne_zero _ hr, hset, Vector.getElem_set, ne_eq, hr, not_false_eq_true, and_true]
      by_cases h : i = r
      · simp [h]
      · rw [if_neg (fun e => h (BitVec.eq_of_toNat_eq e)), if_neg (fun e => h e.symm)]

/-- The stored slot 0 never changes. -/
theorem State.gpr_zero_setX (s : State) (i : Reg) (v : Word) : (s.setX i v).gpr[0] = s.gpr[0] := by
  unfold State.setX
  split
  · rfl
  · rename_i h
    rw [Vector.getElem_set, if_neg]
    intro e
    exact h (BitVec.eq_of_toNat_eq e)

/-- A read of a register depends on the general registers alone. -/
theorem State.x_congr {s t : State} (h : t.gpr = s.gpr) (r : Reg) : t.x r = s.x r := by simp [State.x, h]

@[simp] theorem State.x_setPc (s : State) (t : Word) (r : Reg) : (s.setPc t).x r = s.x r := rfl
@[simp] theorem State.x_advance (s : State) (r : Reg) : s.advance.x r = s.x r := rfl
@[simp] theorem State.x_enterTrap (s : State) (e : Exception) (r : Reg) : (s.enterTrap e).x r = s.x r := rfl
@[simp] theorem State.x_report (s : State) (e : Exception) (r : Reg) : (s.report e).x r = s.x r := rfl
@[simp] theorem State.x_raise (s : State) (e : Exception) (r : Reg) : (s.raise e).x r = s.x r := State.x_congr (by simp) r
@[simp] theorem State.x_returnFromTrap (s : State) (r : Reg) : s.returnFromTrap.x r = s.x r := rfl
@[simp] theorem State.x_beginStep (s : State) (r : Reg) : s.beginStep.x r = s.x r := rfl
@[simp] theorem State.x_latchInstr (s : State) (w : InstrWord) (r : Reg) : (s.latchInstr w).x r = s.x r := rfl
@[simp] theorem State.x_setCsr (s : State) (a : CsrAddr) (v : Word) (r : Reg) : (s.setCsr a v).x r = s.x r := State.x_congr (by simp) r

theorem State.x_retire (s : State) (rd r : Reg) (v : Word) :
    (s.retire rd v).x r = if r = rd ∧ r ≠ 0#5 then v else s.x r := s.x_setX rd r v

/-! ### The CSR bank -/

/-- A read of a CSR depends on the CSR fields alone. -/
theorem State.csr_congr {s t : State} (h1 : t.mstatus = s.mstatus) (h2 : t.misa = s.misa) (h3 : t.mie = s.mie)
    (h4 : t.mtvec = s.mtvec) (h5 : t.mepc = s.mepc) (h6 : t.mcause = s.mcause) (h7 : t.mtval = s.mtval) (h8 : t.mip = s.mip)
    (h9 : t.mhartid = s.mhartid) (h10 : t.satp = s.satp) (h11 : t.csrs = s.csrs) (a : CsrAddr) : t.csr a = s.csr a := by
  simp [State.csr, h1, h2, h3, h4, h5, h6, h7, h8, h9, h10, h11]

@[simp] theorem State.csr_setX (s : State) (i : Reg) (v : Word) (a : CsrAddr) : (s.setX i v).csr a = s.csr a := by
  apply State.csr_congr <;> simp
@[simp] theorem State.csr_setPc (s : State) (t : Word) (a : CsrAddr) : (s.setPc t).csr a = s.csr a := rfl
@[simp] theorem State.csr_advance (s : State) (a : CsrAddr) : s.advance.csr a = s.csr a := rfl
@[simp] theorem State.csr_retire (s : State) (rd : Reg) (v : Word) (a : CsrAddr) : (s.retire rd v).csr a = s.csr a := s.csr_setX rd v a
@[simp] theorem State.csr_report (s : State) (e : Exception) (a : CsrAddr) : (s.report e).csr a = s.csr a := rfl
@[simp] theorem State.csr_beginStep (s : State) (a : CsrAddr) : s.beginStep.csr a = s.csr a := rfl
@[simp] theorem State.csr_latchInstr (s : State) (w : InstrWord) (a : CsrAddr) : (s.latchInstr w).csr a = s.csr a := rfl

/-- The ten slots of 10_state R32 by their fields. -/
theorem State.csr_named (s : State) :
    s.csr 0x180#12 = s.satp ∧ s.csr 0x300#12 = s.mstatus ∧ s.csr 0x301#12 = s.misa ∧ s.csr 0x304#12 = s.mie ∧
    s.csr 0x305#12 = s.mtvec ∧ s.csr 0x341#12 = s.mepc ∧ s.csr 0x342#12 = s.mcause ∧ s.csr 0x343#12 = s.mtval ∧
    s.csr 0x344#12 = s.mip ∧ s.csr 0xF14#12 = s.mhartid := ⟨rfl, rfl, rfl, rfl, rfl, rfl, rfl, rfl, rfl, rfl⟩

/-- A slot that is none of the ten is read from the sparse bank. -/
theorem State.csr_other (s : State) {a : CsrAddr} (h : a ≠ 0x180#12 ∧ a ≠ 0x300#12 ∧ a ≠ 0x301#12 ∧ a ≠ 0x304#12 ∧ a ≠ 0x305#12 ∧
    a ≠ 0x341#12 ∧ a ≠ 0x342#12 ∧ a ≠ 0x343#12 ∧ a ≠ 0x344#12 ∧ a ≠ 0xF14#12) : s.csr a = Sparse.get s.csrs a.toNat := by
  unfold State.csr
  split <;> simp_all

/-! ### mstatus fields and the trap target -/

/-- A bit of a word with one field replaced. -/
theorem getLsbD_setField {n : Nat} (v : Word) (lo : Nat) (f : BitVec n) (i : Nat) (hi : i < 64) :
    (setField v lo f).getLsbD i = if lo ≤ i ∧ i < lo + n then f.getLsbD (i - lo) else v.getLsbD i := by
  unfold setField
  simp only [BitVec.getLsbD_or, BitVec.getLsbD_and, BitVec.getLsbD_not, BitVec.getLsbD_shiftLeft, BitVec.getLsbD_setWidth,
    BitVec.getLsbD_allOnes, hi, decide_true, Bool.true_and]
  by_cases h1 : i < lo
  · simp [h1, show ¬(lo ≤ i ∧ i < lo + n) by omega]
  · by_cases h2 : i < lo + n
    · simp [h1, show (lo ≤ i ∧ i < lo + n) by omega, show i - lo < n by omega, show i - lo < 64 by omega]
    · simp [h1, show ¬(lo ≤ i ∧ i < lo + n) by omega, show ¬(i - lo < n) by omega, BitVec.getLsbD_of_ge f (i - lo) (by omega)]

@[simp] theorem decodeMode_encodeMode (m : PrivMode) : decodeMode (encodeMode m) = m := by cases m <;> rfl

/-! ### Trap entry -/

/-- Where the gate lets the trap in, raising is entering the trap with the outputs set. -/
theorem State.raise_open {s : State} (h : s.params.trapGateObserved = false ∨ trapGateOpen s = true) (e : Exception) :
    s.raise e = (s.report e).enterTrap e := by
  unfold State.raise State.trapEntry
  rw [if_neg]
  have : trapGateOpen (s.report e) = trapGateOpen s := rfl
  rcases h with h | h <;> simp [this, h]

/-- Where the gate is closed, raising only sets the outputs. -/
theorem State.raise_closed {s : State} (h1 : s.params.trapGateObserved = true) (h2 : trapGateOpen s = false) (e : Exception) :
    s.raise e = s.report e := by
  unfold State.raise State.trapEntry
  rw [if_pos]
  have : trapGateOpen (s.report e) = trapGateOpen s := rfl
  simp [this, h1, h2]

/-- Raising an exception: trap entry, or nothing behind a closed gate, in both cases with the outputs set. -/
theorem State.raise_cases (s : State) (e : Exception) :
    s.raise e = (s.report e).enterTrap e ∨
      (s.params.trapGateObserved = true ∧ trapGateOpen s = false ∧ s.raise e = s.report e) := by
  by_cases h1 : s.params.trapGateObserved = true
  · by_cases h2 : trapGateOpen s = true
    · exact .inl (State.raise_open (.inr h2) e)
    · exact .inr ⟨h1, by simpa using h2, State.raise_closed h1 (by simpa using h2) e⟩
  · exact .inl (State.raise_open (.inl (by simpa using h1)) e)

end Sys2Proof.Machine
end

