-- ==== Sys2Proof/Laws/Exec.lean ====
section
/-! SUPPORT. Everything an instruction can do, said once: eight effects. One inversion lemma for each shared shape and one for `exec`;
the proofs over all instructions go through them. -/

namespace Sys2Proof.Machine

/-- Which instruction raises which kind, and with which address (60_exceptions R264). -/
def RaisedBy (i : Instr) (s : State) : Exception → Prop
  | .breakpoint => i = .ebreak
  | .environmentCallFromU => i = .ecall ∧ s.priv = .user
  | .environmentCallFromS => i = .ecall ∧ s.priv = .supervisor
  | .environmentCallFromH => i = .ecall ∧ s.priv = .hypervisor
  | .environmentCallFromM => i = .ecall ∧ s.priv = .machine
  | .loadPageFault a | .loadAccessFault a =>
    opcodeOf (encode i) = 0b0000011#7 ∧ a = s.x (rs1Of (encode i)) + imm12 (immIOf (encode i))
  | .storePageFault a | .storeAccessFault a =>
    opcodeOf (encode i) = 0b0100011#7 ∧ a = s.x (rs1Of (encode i)) + imm12 (immSOf (encode i))
  | .instructionAddressMisaligned _ | .instructionAccessFault _ | .illegalInstruction | .loadAddressMisaligned _ |
    .storeAddressMisaligned _ | .instructionPageFault _ => False

/-- The effects of an instruction of this hart. -/
inductive Effect (i : Instr) (s : State) : Host.Outcome State Fault Refusal → Prop
  /-- A register written, `pc` advanced: the arithmetic, LUI, AUIPC, the loads. -/
  | retire (rd : Reg) (v : Word) (h : rd = rdOf (encode i))
      (hop : opcodeOf (encode i) ∉ [0b1100011#7, 0b0100011#7, 0b0001111#7, 0b1110011#7]) : Effect i s (.next (s.retire rd v))
  /-- A jump: the link register written, `pc` set. -/
  | jump (rd : Reg) (target : Word) (h : rd = rdOf (encode i)) (hop : opcodeOf (encode i) ∈ [0b1101111#7, 0b1100111#7]) :
      Effect i s (.next (jumpTo s rd target))
  /-- `pc` alone: the branches, to any target, and FENCE, to the next instruction. -/
  | onlyPc (target : Word) (hop : opcodeOf (encode i) = 0b1100011#7 ∨ target = s.pc + 4#64) : Effect i s (.next (s.setPc target))
  /-- Bytes stored at a backed address that the effective address was translated to: the stores. -/
  | store (pa : Word) (w : Width) (v : Word) (r x : Bool) (h : backed s.params.regions pa.toNat w.bytes = true)
      (ht : s.translate (s.x (rs1Of (encode i)) + imm12 (immSOf (encode i))) = .ok pa r true x)
      (hop : opcodeOf (encode i) = 0b0100011#7) (hw : w.bytes = 2 ^ (funct3Of (encode i)).toNat) :
      Effect i s (.next ({ s with mem := Memory.writeLE s.mem pa.toNat w.bytes v } : State).advance)
  /-- A CSR and a register written: the CSR instructions. -/
  | csr (rd : Reg) (a : CsrAddr) (v : Word) (h : rd = rdOf (encode i)) (ha : a = immIOf (encode i))
      (hop : IsCsrWord (encode i)) : Effect i s (.next (csrUpdate s rd a v))
  /-- An exception raised: ECALL, EBREAK, a load or store that faults. -/
  | raise (e : Exception) (h : RaisedBy i s e) : Effect i s (.next (s.raise e))
  /-- MRET. -/
  | ret (h : i = .mret) : Effect i s (.next s.returnFromTrap)
  /-- `NotImplemented`: a load or store under a mode that is not implemented. -/
  | notImplemented (va : Word) (h : s.translate va = .unsupported) (hop : IsLoadOrStore (encode i)) :
      Effect i s (.refused .translationNotImplemented)

/-- A kind that an instruction raises is one that the hardware raises. -/
theorem RaisedBy.isRaised {i : Instr} {s : State} {e : Exception} (h : RaisedBy i s e) : e.isRaised = true := by
  cases e <;> first | rfl | exact h.elim

/-- What a load can do. -/
theorem loadWith_effect {i : Instr} (w : Width) (ext : Word → Word) (rd rs1 : Reg) (imm : BitVec 12) (s : State)
    (hrd : rd = rdOf (encode i)) (hrs : rs1 = rs1Of (encode i)) (him : imm = immIOf (encode i))
    (hop : opcodeOf (encode i) = 0b0000011#7) : Effect i s (loadWith w ext rd rs1 imm s) := by
  have hea : effectiveAddress s rs1 imm = s.x (rs1Of (encode i)) + imm12 (immIOf (encode i)) := by rw [hrs, him]; rfl
  unfold loadWith
  rcases s.memRead_cases (effectiveAddress s rs1 imm) w with ⟨h, e⟩ | ⟨-, e⟩ | ⟨_, _, _, -, -, e⟩ | ⟨_, _, _, -, -, e⟩ <;> rw [e]
  · exact .notImplemented _ h (.inl hop)
  · exact .raise _ ⟨hop, hea⟩
  · exact .raise _ ⟨hop, hea⟩
  · exact .retire rd _ hrd (by rw [hop]; decide)

/-- What a store can do. -/
theorem storeWith_effect {i : Instr} (w : Width) (rs1 rs2 : Reg) (imm : BitVec 12) (s : State)
    (hrs : rs1 = rs1Of (encode i)) (him : imm = immSOf (encode i)) (hop : opcodeOf (encode i) = 0b0100011#7)
    (hw : w.bytes = 2 ^ (funct3Of (encode i)).toNat) : Effect i s (storeWith w rs1 rs2 imm s) := by
  have hea : effectiveAddress s rs1 imm = s.x (rs1Of (encode i)) + imm12 (immSOf (encode i)) := by rw [hrs, him]; rfl
  unfold storeWith
  rcases s.memWrite_cases (effectiveAddress s rs1 imm) w (s.x rs2) with
    ⟨h, e⟩ | ⟨-, e⟩ | ⟨_, _, _, -, -, e⟩ | ⟨_, r, x, ht, hb, e⟩ <;> rw [e]
  · exact .notImplemented _ h (.inr hop)
  · exact .raise _ ⟨hop, hea⟩
  · exact .raise _ ⟨hop, hea⟩
  · exact .store _ w _ r x hb (hea ▸ ht) hop hw

/-- What a branch can do. -/
theorem branchIf_effect {i : Instr} (taken : Bool) (off : BitVec 13) (s : State) (hop : opcodeOf (encode i) = 0b1100011#7) :
    Effect i s (.next (branchIf taken off s)) := by
  unfold branchIf
  split
  · exact .onlyPc _ (.inl hop)
  · exact .onlyPc (s.pc + 4#64) (.inl hop)

/-- Everything an instruction can do. -/
theorem exec_effect (i : Instr) (s : State) : Effect i s (exec i s) := by
  cases i with
  | jal rd off => exact .jump rd _ (by simp [encode]) (by simp [encode])
  | jalr rd rs1 imm f3 => exact .jump rd _ (by simp [encode]) (by simp [encode])
  | beq | bne | blt | bge | bltu | bgeu => exact branchIf_effect _ _ s (by simp [encode])
  | lb | lh | lw | ld | lbu | lhu | lwu =>
    exact loadWith_effect _ _ _ _ _ s (by simp [encode]) (by simp [encode]) (by simp [encode]) (by simp [encode])
  | sb | sh | sw | sd =>
    exact storeWith_effect _ _ _ _ s (by simp [encode]) (by simp [encode, immSOf_encS]) (by simp [encode])
      (by simp [encode, Width.bytes])
  | fence => exact .onlyPc (s.pc + 4#64) (.inr rfl)
  | ecall => exact .raise (environmentCall s.priv) (by cases h : s.priv <;> exact ⟨rfl, h⟩)
  | ebreak => exact .raise .breakpoint rfl
  | mret => exact .ret rfl
  | csrrw | csrrs | csrrc | csrrwi | csrrsi | csrrci =>
    exact .csr _ _ _ (by simp [encode]) (by simp [encode]) (by simp [encode, IsCsrWord])
  | _ => exact .retire _ _ (by simp [encode]) (by simp [encode])

end Sys2Proof.Machine
end

