-- ==== Sys2Proof/Laws/Map.lean ====
section
/-! SUPPORT. The memory map as the model computes it and as claims speak of it, shown to agree. -/

namespace Sys2Proof.Machine

/-- Disjointness by end points is having no common address, for regions with a byte. -/
theorem disjointRegions_iff {r q : Region} (hr : 1 ≤ r.length) (hq : 1 ≤ q.length) :
    disjointRegions r q = true ↔ ∀ a, ¬(InRegion r a ∧ InRegion q a) := by
  simp only [disjointRegions, InRegion, Bool.or_eq_true, decide_eq_true_eq]
  constructor
  · omega
  · intro h
    have h1 := h r.base
    have h2 := h q.base
    omega

/-- The model's test of a memory map is the rule's (20_memory R61). -/
theorem legalRegions_iff (rs : List Region) : legalRegions rs = true ↔ LegalMap rs := by
  induction rs with
  | nil => simp [legalRegions, LegalMap]
  | cons r rest ih =>
    simp only [legalRegions, legalRegion, Bool.and_eq_true, decide_eq_true_eq, List.all_eq_true, ih, LegalMap, List.forall_mem_cons,
      List.pairwise_cons]
    constructor
    · rintro ⟨⟨h1, h2⟩, h3, h4⟩
      exact ⟨⟨h1, h3⟩, fun q hq => (disjointRegions_iff h1.1 (h3 q hq).1).1 (h2 q hq), h4⟩
    · rintro ⟨⟨h1, h3⟩, h2, h4⟩
      exact ⟨⟨h1, fun q hq => (disjointRegions_iff h1.1 (h3 q hq).1).2 (h2 q hq)⟩, h3, h4⟩

/-- In a legal map an access of at least one byte is backed exactly where one region holds all of it (20_memory R65). -/
theorem backed_iff {rs : List Region} (h : LegalMap rs) {pa n : Nat} (hn : 1 ≤ n) :
    backed rs pa n = true ↔ InOneRegion rs pa n := by
  constructor
  · exact backed_region
  · rintro ⟨r, hr, h1, h2⟩
    exact backed_of_region ((legalRegions_iff rs).2 h) hr hn h1 h2

/-- Every width has at least one byte. -/
theorem Width.one_le_bytes (w : Width) : 1 ≤ w.bytes := by cases w <;> decide

end Sys2Proof.Machine
end

