-- ==== Sys2Proof/Laws/PerInstr.lean ====
section
/-! SUPPORT. One lemma per instruction: the encoder's word selects the instruction's own row of the opcode table (30_encoding R127), so
that no fixed bit of an encoding is written differently in the two. -/

namespace Sys2Proof

/-! ### The table's masks are fields -/

theorem mask_opcode (w : InstrWord) : w &&& 0x0000007F#32 = (opcodeOf w).setWidth 32 := by
  ext i hi
  interval_cases i <;> simp [opcodeOf]

theorem mask_funct3 (w : InstrWord) :
    w &&& 0x0000707F#32 = (funct3Of w).setWidth 32 <<< 12 ||| (opcodeOf w).setWidth 32 := by
  ext i hi
  interval_cases i <;> simp [opcodeOf, funct3Of]

theorem mask_funct7 (w : InstrWord) : w &&& 0xFE00707F#32 =
    (funct7Of w).setWidth 32 <<< 25 ||| (funct3Of w).setWidth 32 <<< 12 ||| (opcodeOf w).setWidth 32 := by
  ext i hi
  interval_cases i <;> simp [opcodeOf, funct3Of, funct7Of]

theorem mask_funct6 (w : InstrWord) : w &&& 0xFC00707F#32 =
    (funct6Of w).setWidth 32 <<< 26 ||| (funct3Of w).setWidth 32 <<< 12 ||| (opcodeOf w).setWidth 32 := by
  ext i hi
  interval_cases i <;> simp [opcodeOf, funct3Of, funct6Of]

end Sys2Proof

namespace Sys2Proof.Laws

/-- The row with the instruction's mnemonic selects the encoder's word. -/
def EncodeSelectsRow.Statement (i : Instr) : Prop :=
  ∃ r ∈ opcodeRows, r.mnemonic = mnemonicOf i ∧ r.selects (encode i) = true

/-- The statement, from the row's place in the table. -/
theorem selects_of_row (i : Instr) (n : Nat) (r : OpcodeRow) (hr : opcodeRows[n]? = some r) (hm : r.mnemonic = mnemonicOf i)
    (h : encode i &&& r.mask = r.value) : EncodeSelectsRow.Statement i :=
  ⟨r, List.mem_of_getElem? hr, hm, by simpa [OpcodeRow.selects] using h⟩

theorem EncodeSelectsRow.lui (rd : Reg) (imm20 : BitVec 20) : EncodeSelectsRow.Statement (.lui rd imm20) :=
  selects_of_row _ 0 _ rfl rfl ((mask_opcode _).trans (by simp [encode]))

theorem EncodeSelectsRow.auipc (rd : Reg) (imm20 : BitVec 20) : EncodeSelectsRow.Statement (.auipc rd imm20) :=
  selects_of_row _ 1 _ rfl rfl ((mask_opcode _).trans (by simp [encode]))

theorem EncodeSelectsRow.jal (rd : Reg) (off : BitVec 21) : EncodeSelectsRow.Statement (.jal rd off) :=
  selects_of_row _ 2 _ rfl rfl ((mask_opcode _).trans (by simp [encode]))

theorem EncodeSelectsRow.jalr (rd rs1 : Reg) (imm : BitVec 12) (funct3 : BitVec 3) : EncodeSelectsRow.Statement (.jalr rd rs1 imm funct3) :=
  selects_of_row _ 3 _ rfl rfl ((mask_opcode _).trans (by simp [encode]))

theorem EncodeSelectsRow.beq (rs1 rs2 : Reg) (off : BitVec 13) : EncodeSelectsRow.Statement (.beq rs1 rs2 off) :=
  selects_of_row _ 4 _ rfl rfl ((mask_funct3 _).trans (by simp [encode]))

theorem EncodeSelectsRow.bne (rs1 rs2 : Reg) (off : BitVec 13) : EncodeSelectsRow.Statement (.bne rs1 rs2 off) :=
  selects_of_row _ 5 _ rfl rfl ((mask_funct3 _).trans (by simp [encode]))

theorem EncodeSelectsRow.blt (rs1 rs2 : Reg) (off : BitVec 13) : EncodeSelectsRow.Statement (.blt rs1 rs2 off) :=
  selects_of_row _ 6 _ rfl rfl ((mask_funct3 _).trans (by simp [encode]))

theorem EncodeSelectsRow.bge (rs1 rs2 : Reg) (off : BitVec 13) : EncodeSelectsRow.Statement (.bge rs1 rs2 off) :=
  selects_of_row _ 7 _ rfl rfl ((mask_funct3 _).trans (by simp [encode]))

theorem EncodeSelectsRow.bltu (rs1 rs2 : Reg) (off : BitVec 13) : EncodeSelectsRow.Statement (.bltu rs1 rs2 off) :=
  selects_of_row _ 8 _ rfl rfl ((mask_funct3 _).trans (by simp [encode]))

theorem EncodeSelectsRow.bgeu (rs1 rs2 : Reg) (off : BitVec 13) : EncodeSelectsRow.Statement (.bgeu rs1 rs2 off) :=
  selects_of_row _ 9 _ rfl rfl ((mask_funct3 _).trans (by simp [encode]))

theorem EncodeSelectsRow.lb (rd rs1 : Reg) (imm : BitVec 12) : EncodeSelectsRow.Statement (.lb rd rs1 imm) :=
  selects_of_row _ 10 _ rfl rfl ((mask_funct3 _).trans (by simp [encode]))

theorem EncodeSelectsRow.lh (rd rs1 : Reg) (imm : BitVec 12) : EncodeSelectsRow.Statement (.lh rd rs1 imm) :=
  selects_of_row _ 11 _ rfl rfl ((mask_funct3 _).trans (by simp [encode]))

theorem EncodeSelectsRow.lw (rd rs1 : Reg) (imm : BitVec 12) : EncodeSelectsRow.Statement (.lw rd rs1 imm) :=
  selects_of_row _ 12 _ rfl rfl ((mask_funct3 _).trans (by simp [encode]))

theorem EncodeSelectsRow.ld (rd rs1 : Reg) (imm : BitVec 12) : EncodeSelectsRow.Statement (.ld rd rs1 imm) :=
  selects_of_row _ 13 _ rfl rfl ((mask_funct3 _).trans (by simp [encode]))

theorem EncodeSelectsRow.lbu (rd rs1 : Reg) (imm : BitVec 12) : EncodeSelectsRow.Statement (.lbu rd rs1 imm) :=
  selects_of_row _ 14 _ rfl rfl ((mask_funct3 _).trans (by simp [encode]))

theorem EncodeSelectsRow.lhu (rd rs1 : Reg) (imm : BitVec 12) : EncodeSelectsRow.Statement (.lhu rd rs1 imm) :=
  selects_of_row _ 15 _ rfl rfl ((mask_funct3 _).trans (by simp [encode]))

theorem EncodeSelectsRow.lwu (rd rs1 : Reg) (imm : BitVec 12) : EncodeSelectsRow.Statement (.lwu rd rs1 imm) :=
  selects_of_row _ 16 _ rfl rfl ((mask_funct3 _).trans (by simp [encode]))

theorem EncodeSelectsRow.sb (rs1 rs2 : Reg) (imm : BitVec 12) : EncodeSelectsRow.Statement (.sb rs1 rs2 imm) :=
  selects_of_row _ 17 _ rfl rfl ((mask_funct3 _).trans (by simp [encode]))

theorem EncodeSelectsRow.sh (rs1 rs2 : Reg) (imm : BitVec 12) : EncodeSelectsRow.Statement (.sh rs1 rs2 imm) :=
  selects_of_row _ 18 _ rfl rfl ((mask_funct3 _).trans (by simp [encode]))

theorem EncodeSelectsRow.sw (rs1 rs2 : Reg) (imm : BitVec 12) : EncodeSelectsRow.Statement (.sw rs1 rs2 imm) :=
  selects_of_row _ 19 _ rfl rfl ((mask_funct3 _).trans (by simp [encode]))

theorem EncodeSelectsRow.sd (rs1 rs2 : Reg) (imm : BitVec 12) : EncodeSelectsRow.Statement (.sd rs1 rs2 imm) :=
  selects_of_row _ 20 _ rfl rfl ((mask_funct3 _).trans (by simp [encode]))

theorem EncodeSelectsRow.addi (rd rs1 : Reg) (imm : BitVec 12) : EncodeSelectsRow.Statement (.addi rd rs1 imm) :=
  selects_of_row _ 21 _ rfl rfl ((mask_funct3 _).trans (by simp [encode]))

theorem EncodeSelectsRow.slti (rd rs1 : Reg) (imm : BitVec 12) : EncodeSelectsRow.Statement (.slti rd rs1 imm) :=
  selects_of_row _ 22 _ rfl rfl ((mask_funct3 _).trans (by simp [encode]))

theorem EncodeSelectsRow.sltiu (rd rs1 : Reg) (imm : BitVec 12) : EncodeSelectsRow.Statement (.sltiu rd rs1 imm) :=
  selects_of_row _ 23 _ rfl rfl ((mask_funct3 _).trans (by simp [encode]))

theorem EncodeSelectsRow.xori (rd rs1 : Reg) (imm : BitVec 12) : EncodeSelectsRow.Statement (.xori rd rs1 imm) :=
  selects_of_row _ 24 _ rfl rfl ((mask_funct3 _).trans (by simp [encode]))

theorem EncodeSelectsRow.ori (rd rs1 : Reg) (imm : BitVec 12) : EncodeSelectsRow.Statement (.ori rd rs1 imm) :=
  selects_of_row _ 25 _ rfl rfl ((mask_funct3 _).trans (by simp [encode]))

theorem EncodeSelectsRow.andi (rd rs1 : Reg) (imm : BitVec 12) : EncodeSelectsRow.Statement (.andi rd rs1 imm) :=
  selects_of_row _ 26 _ rfl rfl ((mask_funct3 _).trans (by simp [encode]))

theorem EncodeSelectsRow.slli (rd rs1 : Reg) (shamt : BitVec 6) : EncodeSelectsRow.Statement (.slli rd rs1 shamt) :=
  selects_of_row _ 27 _ rfl rfl ((mask_funct6 _).trans (by simp [encode]))

theorem EncodeSelectsRow.srli (rd rs1 : Reg) (shamt : BitVec 6) : EncodeSelectsRow.Statement (.srli rd rs1 shamt) :=
  selects_of_row _ 28 _ rfl rfl ((mask_funct6 _).trans (by simp [encode]))

theorem EncodeSelectsRow.srai (rd rs1 : Reg) (shamt : BitVec 6) : EncodeSelectsRow.Statement (.srai rd rs1 shamt) :=
  selects_of_row _ 29 _ rfl rfl ((mask_funct6 _).trans (by simp [encode]))

theorem EncodeSelectsRow.addiw (rd rs1 : Reg) (imm : BitVec 12) : EncodeSelectsRow.Statement (.addiw rd rs1 imm) :=
  selects_of_row _ 30 _ rfl rfl ((mask_funct3 _).trans (by simp [encode]))

theorem EncodeSelectsRow.slliw (rd rs1 : Reg) (shamt : BitVec 5) : EncodeSelectsRow.Statement (.slliw rd rs1 shamt) :=
  selects_of_row _ 31 _ rfl rfl ((mask_funct7 _).trans (by simp [encode]))

theorem EncodeSelectsRow.srliw (rd rs1 : Reg) (shamt : BitVec 5) : EncodeSelectsRow.Statement (.srliw rd rs1 shamt) :=
  selects_of_row _ 32 _ rfl rfl ((mask_funct7 _).trans (by simp [encode]))

theorem EncodeSelectsRow.sraiw (rd rs1 : Reg) (shamt : BitVec 5) : EncodeSelectsRow.Statement (.sraiw rd rs1 shamt) :=
  selects_of_row _ 33 _ rfl rfl ((mask_funct7 _).trans (by simp [encode]))

theorem EncodeSelectsRow.add (rd rs1 rs2 : Reg) : EncodeSelectsRow.Statement (.add rd rs1 rs2) :=
  selects_of_row _ 34 _ rfl rfl ((mask_funct7 _).trans (by simp [encode]))

theorem EncodeSelectsRow.sub (rd rs1 rs2 : Reg) : EncodeSelectsRow.Statement (.sub rd rs1 rs2) :=
  selects_of_row _ 35 _ rfl rfl ((mask_funct7 _).trans (by simp [encode]))

theorem EncodeSelectsRow.sll (rd rs1 rs2 : Reg) : EncodeSelectsRow.Statement (.sll rd rs1 rs2) :=
  selects_of_row _ 36 _ rfl rfl ((mask_funct7 _).trans (by simp [encode]))

theorem EncodeSelectsRow.slt (rd rs1 rs2 : Reg) : EncodeSelectsRow.Statement (.slt rd rs1 rs2) :=
  selects_of_row _ 37 _ rfl rfl ((mask_funct7 _).trans (by simp [encode]))

theorem EncodeSelectsRow.sltu (rd rs1 rs2 : Reg) : EncodeSelectsRow.Statement (.sltu rd rs1 rs2) :=
  selects_of_row _ 38 _ rfl rfl ((mask_funct7 _).trans (by simp [encode]))

theorem EncodeSelectsRow.xor (rd rs1 rs2 : Reg) : EncodeSelectsRow.Statement (.xor rd rs1 rs2) :=
  selects_of_row _ 39 _ rfl rfl ((mask_funct7 _).trans (by simp [encode]))

theorem EncodeSelectsRow.srl (rd rs1 rs2 : Reg) : EncodeSelectsRow.Statement (.srl rd rs1 rs2) :=
  selects_of_row _ 40 _ rfl rfl ((mask_funct7 _).trans (by simp [encode]))

theorem EncodeSelectsRow.sra (rd rs1 rs2 : Reg) : EncodeSelectsRow.Statement (.sra rd rs1 rs2) :=
  selects_of_row _ 41 _ rfl rfl ((mask_funct7 _).trans (by simp [encode]))

theorem EncodeSelectsRow.or (rd rs1 rs2 : Reg) : EncodeSelectsRow.Statement (.or rd rs1 rs2) :=
  selects_of_row _ 42 _ rfl rfl ((mask_funct7 _).trans (by simp [encode]))

theorem EncodeSelectsRow.and (rd rs1 rs2 : Reg) : EncodeSelectsRow.Statement (.and rd rs1 rs2) :=
  selects_of_row _ 43 _ rfl rfl ((mask_funct7 _).trans (by simp [encode]))

theorem EncodeSelectsRow.addw (rd rs1 rs2 : Reg) : EncodeSelectsRow.Statement (.addw rd rs1 rs2) :=
  selects_of_row _ 44 _ rfl rfl ((mask_funct7 _).trans (by simp [encode]))

theorem EncodeSelectsRow.subw (rd rs1 rs2 : Reg) : EncodeSelectsRow.Statement (.subw rd rs1 rs2) :=
  selects_of_row _ 45 _ rfl rfl ((mask_funct7 _).trans (by simp [encode]))

theorem EncodeSelectsRow.sllw (rd rs1 rs2 : Reg) : EncodeSelectsRow.Statement (.sllw rd rs1 rs2) :=
  selects_of_row _ 46 _ rfl rfl ((mask_funct7 _).trans (by simp [encode]))

theorem EncodeSelectsRow.srlw (rd rs1 rs2 : Reg) : EncodeSelectsRow.Statement (.srlw rd rs1 rs2) :=
  selects_of_row _ 47 _ rfl rfl ((mask_funct7 _).trans (by simp [encode]))

theorem EncodeSelectsRow.sraw (rd rs1 rs2 : Reg) : EncodeSelectsRow.Statement (.sraw rd rs1 rs2) :=
  selects_of_row _ 48 _ rfl rfl ((mask_funct7 _).trans (by simp [encode]))

theorem EncodeSelectsRow.fence (fm pred succ : BitVec 4) (rs1 : Reg) (funct3 : BitVec 3) (rd : Reg) : EncodeSelectsRow.Statement (.fence fm pred succ rs1 funct3 rd) :=
  selects_of_row _ 49 _ rfl rfl ((mask_opcode _).trans (by simp [encode]))

theorem EncodeSelectsRow.ecall : EncodeSelectsRow.Statement .ecall :=
  selects_of_row _ 50 _ rfl rfl rfl

theorem EncodeSelectsRow.ebreak : EncodeSelectsRow.Statement .ebreak :=
  selects_of_row _ 51 _ rfl rfl rfl

theorem EncodeSelectsRow.mret : EncodeSelectsRow.Statement .mret :=
  selects_of_row _ 52 _ rfl rfl rfl

theorem EncodeSelectsRow.csrrw (rd : Reg) (csr : CsrAddr) (rs1 : Reg) : EncodeSelectsRow.Statement (.csrrw rd csr rs1) :=
  selects_of_row _ 53 _ rfl rfl ((mask_funct3 _).trans (by simp [encode]))

theorem EncodeSelectsRow.csrrs (rd : Reg) (csr : CsrAddr) (rs1 : Reg) : EncodeSelectsRow.Statement (.csrrs rd csr rs1) :=
  selects_of_row _ 54 _ rfl rfl ((mask_funct3 _).trans (by simp [encode]))

theorem EncodeSelectsRow.csrrc (rd : Reg) (csr : CsrAddr) (rs1 : Reg) : EncodeSelectsRow.Statement (.csrrc rd csr rs1) :=
  selects_of_row _ 55 _ rfl rfl ((mask_funct3 _).trans (by simp [encode]))

theorem EncodeSelectsRow.csrrwi (rd : Reg) (csr : CsrAddr) (uimm : BitVec 5) : EncodeSelectsRow.Statement (.csrrwi rd csr uimm) :=
  selects_of_row _ 56 _ rfl rfl ((mask_funct3 _).trans (by simp [encode]))

theorem EncodeSelectsRow.csrrsi (rd : Reg) (csr : CsrAddr) (uimm : BitVec 5) : EncodeSelectsRow.Statement (.csrrsi rd csr uimm) :=
  selects_of_row _ 57 _ rfl rfl ((mask_funct3 _).trans (by simp [encode]))

theorem EncodeSelectsRow.csrrci (rd : Reg) (csr : CsrAddr) (uimm : BitVec 5) : EncodeSelectsRow.Statement (.csrrci rd csr uimm) :=
  selects_of_row _ 58 _ rfl rfl ((mask_funct3 _).trans (by simp [encode]))

end Sys2Proof.Laws
end

