-- ==== Sys2Proof/Laws/Step.lean ====
section
/-! SUPPORT. What a step that answers a next state did: three cases, said once. -/

namespace Sys2Proof.Machine

/-- A step to a next state: the map is legal, and the fetch failed, or the word is illegal, or the instruction ran. -/
theorem step_next {s t : State} (h : step s = .next t) :
    legalRegions s.params.regions = true ∧
      ((s.fetch = none ∧ t = s.beginStep.raise (.instructionAccessFault s.pc)) ∨
       (∃ w e, s.fetch = some w ∧ decode w = .error e ∧ t = (s.beginStep.latchInstr w).raise .illegalInstruction) ∨
       (∃ w i, s.fetch = some w ∧ decode w = .ok i ∧ exec i (s.beginStep.latchInstr w) = .next t)) := by
  unfold step runCycle at h
  split at h
  · rename_i hl
    refine ⟨hl, ?_⟩
    unfold fetchAndRun at h
    rw [show s.beginStep.fetch = s.fetch from rfl] at h
    cases hf : s.fetch with
    | none => simp only [hf] at h; cases h; exact .inl ⟨rfl, rfl⟩
    | some w =>
      simp only [hf, runWord] at h
      cases hd : decode w with
      | error e => simp only [hd] at h; cases h; exact .inr (.inl ⟨w, e, rfl, hd, rfl⟩)
      | ok i => simp only [hd] at h; exact .inr (.inr ⟨w, i, rfl, hd, h⟩)
  · cases h

/-! ### The canonical form of memory, over every operation that writes it -/

/-- Setting one byte keeps the canonical form. -/
theorem Memory.wf_set {m : List Host.Cell} {a : Nat} (v : Byte) (h : Memory.wf m) (ha : a < 2 ^ 64) : Memory.wf (Memory.set m a v) := by
  refine ⟨Sparse.canonical_set a v h.1, fun c hc => ?_⟩
  rcases Sparse.mem_set hc with ⟨rfl, -⟩ | ⟨hm, -⟩
  · exact ha
  · exact h.2 c hm

/-- In a legal map a physical write keeps the canonical form. -/
theorem State.wf_physWrite {s t : State} {pa : Word} {w : Width} {v : Word} (hl : legalRegions s.params.regions = true)
    (hm : Memory.wf s.mem) (h : s.physWrite pa w v = some t) : Memory.wf t.mem := by
  obtain ⟨hb, rfl⟩ := State.physWrite_some h
  obtain ⟨r, hr, -, h2⟩ := backed_region hb
  exact Memory.wf_writeLE _ _ _ _ hm (h2.trans (legalRegions_mem hl hr).2)

/-- A physical write changes no parameter. -/
theorem State.params_physWrite {s t : State} {pa : Word} {w : Width} {v : Word} (h : s.physWrite pa w v = some t) :
    t.params = s.params := by
  rw [(State.physWrite_some h).2]

/-- The store path keeps the canonical form. -/
theorem State.wf_memWrite {s t : State} {va : Word} {w : Width} {v : Word} (hl : legalRegions s.params.regions = true)
    (hm : Memory.wf s.mem) (h : s.memWrite va w v = .done t) : Memory.wf t.mem := by
  rcases s.memWrite_cases va w v with ⟨-, e⟩ | ⟨-, e⟩ | ⟨_, _, _, -, -, e⟩ | ⟨pa, _, _, -, hb, e⟩ <;> rw [e] at h <;> cases h
  obtain ⟨r, hr, -, h2⟩ := backed_region hb
  exact Memory.wf_writeLE _ _ _ _ hm (h2.trans (legalRegions_mem hl hr).2)

/-- Placing an instruction word keeps the canonical form. -/
theorem State.wf_placeWord {s : State} (w : InstrWord) (hl : legalRegions s.params.regions = true) (hm : Memory.wf s.mem) :
    Memory.wf (s.placeWord w).mem := by
  unfold State.placeWord
  split
  · exact hm
  · exact State.wf_physWrite hl hm ‹_›

/-- Loading an image keeps the canonical form. -/
theorem State.wf_loadImage (image : List Byte) : ∀ {s t : State} {pa : Word}, legalRegions s.params.regions = true →
    Memory.wf s.mem → s.loadImage pa image = some t → Memory.wf t.mem := by
  induction image with
  | nil => intro s t pa _ hm h; cases h; exact hm
  | cons b rest ih =>
    intro s t pa hl hm h
    simp only [State.loadImage] at h
    split at h
    · cases h
    · rename_i u hu
      exact ih (by rw [State.params_physWrite hu]; exact hl) (State.wf_physWrite hl hm hu) h

/-- Reset's memory is in canonical form. -/
theorem State.wf_reset : Memory.wf State.reset.mem := ⟨⟨List.Pairwise.nil, nofun⟩, nofun⟩

end Sys2Proof.Machine
end

