-- ==== Sys2Proof/Tests/Slice0.lean ====
section
/-! SUPPORT. The model's own tests. Words and expected values are those of the instruction files and of 95_test_vectors; each test is one
decoding or one step. The witnesses show that the hypotheses of the obligations can be met. -/

namespace Sys2Proof.Tests

open Sys2Proof.Machine

/-! ### Ill-formed instructions are refused by the check (30_encoding R120, R122) -/

theorem test_ill_formed_jal : Instr.wellFormed (.jal 1 3) = false := by decide
theorem test_ill_formed_beq : Instr.wellFormed (.beq 1 2 3) = false := by decide
theorem test_ill_formed_bne : Instr.wellFormed (.bne 1 2 3) = false := by decide
theorem test_ill_formed_blt : Instr.wellFormed (.blt 1 2 3) = false := by decide
theorem test_ill_formed_bge : Instr.wellFormed (.bge 1 2 3) = false := by decide
theorem test_ill_formed_bltu : Instr.wellFormed (.bltu 1 2 3) = false := by decide
theorem test_ill_formed_bgeu : Instr.wellFormed (.bgeu 1 2 3) = false := by decide

/-! ### Decoding: one word for each instruction, written out in the spec -/

theorem test_decode_lui : decode 0x1BF520B7#32 = .ok (.lui 1 0x1BF52) := by rfl
theorem test_decode_auipc : decode 0x00001297#32 = .ok (.auipc 5 1) := by rfl
theorem test_decode_jal : decode 0xFE9FF06F#32 = .ok (.jal 0 (-24)) := by rfl
theorem test_decode_jalr : decode 0xFFD280E7#32 = .ok (.jalr 1 5 (-3) 0) := by rfl
theorem test_decode_beq : decode 0x00208463#32 = .ok (.beq 1 2 8) := by rfl
theorem test_decode_bne : decode 0xFE009CE3#32 = .ok (.bne 1 0 (-8)) := by rfl
theorem test_decode_blt : decode 0x8020C063#32 = .ok (.blt 1 2 (-4096)) := by rfl
theorem test_decode_bge : decode 0x7E20DFE3#32 = .ok (.bge 1 2 4094) := by rfl
theorem test_decode_bltu : decode 0x0020E463#32 = .ok (.bltu 1 2 8) := by rfl
theorem test_decode_bgeu : decode 0x0020F463#32 = .ok (.bgeu 1 2 8) := by rfl
theorem test_decode_lb : decode 0x00828303#32 = .ok (.lb 6 5 8) := by rfl
theorem test_decode_lh : decode 0x00829303#32 = .ok (.lh 6 5 8) := by rfl
theorem test_decode_lw : decode 0x0082A303#32 = .ok (.lw 6 5 8) := by rfl
theorem test_decode_ld : decode 0xFF82B303#32 = .ok (.ld 6 5 (-8)) := by rfl
theorem test_decode_lbu : decode 0x0082C303#32 = .ok (.lbu 6 5 8) := by rfl
theorem test_decode_lhu : decode 0x0082D303#32 = .ok (.lhu 6 5 8) := by rfl
theorem test_decode_lwu : decode 0x0082E303#32 = .ok (.lwu 6 5 8) := by rfl
theorem test_decode_sb : decode 0x00628423#32 = .ok (.sb 5 6 8) := by rfl
theorem test_decode_sh : decode 0x006294A3#32 = .ok (.sh 5 6 9) := by rfl
theorem test_decode_sw : decode 0x0062A523#32 = .ok (.sw 5 6 10) := by rfl
theorem test_decode_sd : decode 0xFE62BC23#32 = .ok (.sd 5 6 (-8)) := by rfl
theorem test_decode_addi : decode 0x77F08093#32 = .ok (.addi 1 1 1919) := by rfl
theorem test_decode_slti : decode 0xFFF0A113#32 = .ok (.slti 2 1 (-1)) := by rfl
theorem test_decode_sltiu : decode 0x0010B113#32 = .ok (.sltiu 2 1 1) := by rfl
theorem test_decode_xori : decode 0xFFF0C113#32 = .ok (.xori 2 1 (-1)) := by rfl
theorem test_decode_ori : decode 0x0F00E113#32 = .ok (.ori 2 1 0x0F0) := by rfl
theorem test_decode_andi : decode 0x0FF0F113#32 = .ok (.andi 2 1 0x0FF) := by rfl
theorem test_decode_slli : decode 0x03F09113#32 = .ok (.slli 2 1 63) := by rfl
theorem test_decode_srli : decode 0x0200D113#32 = .ok (.srli 2 1 32) := by rfl
theorem test_decode_srai : decode 0x4040D113#32 = .ok (.srai 2 1 4) := by rfl
theorem test_decode_addiw : decode 0x0010811B#32 = .ok (.addiw 2 1 1) := by rfl
theorem test_decode_slliw : decode 0x01F0911B#32 = .ok (.slliw 2 1 31) := by rfl
theorem test_decode_srliw : decode 0x01F0D11B#32 = .ok (.srliw 2 1 31) := by rfl
theorem test_decode_sraiw : decode 0x4040D11B#32 = .ok (.sraiw 2 1 4) := by rfl
theorem test_decode_add : decode 0x002081B3#32 = .ok (.add 3 1 2) := by rfl
theorem test_decode_sub : decode 0x402081B3#32 = .ok (.sub 3 1 2) := by rfl
theorem test_decode_sll : decode 0x002091B3#32 = .ok (.sll 3 1 2) := by rfl
theorem test_decode_slt : decode 0x0020A1B3#32 = .ok (.slt 3 1 2) := by rfl
theorem test_decode_sltu : decode 0x0020B1B3#32 = .ok (.sltu 3 1 2) := by rfl
theorem test_decode_xor : decode 0x0020C1B3#32 = .ok (.xor 3 1 2) := by rfl
theorem test_decode_srl : decode 0x0020D1B3#32 = .ok (.srl 3 1 2) := by rfl
theorem test_decode_sra : decode 0x4020D1B3#32 = .ok (.sra 3 1 2) := by rfl
theorem test_decode_or : decode 0x0020E1B3#32 = .ok (.or 3 1 2) := by rfl
theorem test_decode_and : decode 0x0020F1B3#32 = .ok (.and 3 1 2) := by rfl
theorem test_decode_addw : decode 0x002081BB#32 = .ok (.addw 3 1 2) := by rfl
theorem test_decode_subw : decode 0x402081BB#32 = .ok (.subw 3 1 2) := by rfl
theorem test_decode_sllw : decode 0x002091BB#32 = .ok (.sllw 3 1 2) := by rfl
theorem test_decode_srlw : decode 0x0020D1BB#32 = .ok (.srlw 3 1 2) := by rfl
theorem test_decode_sraw : decode 0x4020D1BB#32 = .ok (.sraw 3 1 2) := by rfl
theorem test_decode_fence : decode 0x8330000F#32 = .ok (.fence 8 3 3 0 0 0) := by rfl
theorem test_decode_ecall : decode 0x00000073#32 = .ok (.ecall) := by rfl
theorem test_decode_ebreak : decode 0x00100073#32 = .ok (.ebreak) := by rfl
theorem test_decode_mret : decode 0x30200073#32 = .ok (.mret) := by rfl
theorem test_decode_csrrw : decode 0x305312F3#32 = .ok (.csrrw 5 0x305 6) := by rfl
theorem test_decode_csrrs : decode 0x300322F3#32 = .ok (.csrrs 5 0x300 6) := by rfl
theorem test_decode_csrrc : decode 0x300332F3#32 = .ok (.csrrc 5 0x300 6) := by rfl
theorem test_decode_csrrwi : decode 0x340FD2F3#32 = .ok (.csrrwi 5 0x340 31) := by rfl
theorem test_decode_csrrsi : decode 0x300462F3#32 = .ok (.csrrsi 5 0x300 8) := by rfl
theorem test_decode_csrrci : decode 0x300472F3#32 = .ok (.csrrci 5 0x300 8) := by rfl

/-! ### Words that are no instruction (30_encoding R128, R200, R225, R245) -/

theorem test_illegal_zero : decode 0x00000000#32 = .error .unknownOpcode := by rfl
theorem test_illegal_ones : decode 0xFFFFFFFF#32 = .error .unknownOpcode := by rfl
theorem test_illegal_branch_010 : decode 0x0020A463#32 = .error .unmatchedFunct3 := by rfl
theorem test_illegal_load_111 : decode 0x0002F303#32 = .error .unmatchedFunct3 := by rfl
theorem test_illegal_slliw_32 : decode 0x0200911B#32 = .error .unmatchedFunct7 := by rfl
theorem test_illegal_mul : decode 0x022081B3#32 = .error .unmatchedFunct7 := by rfl
theorem test_illegal_wfi : decode 0x10500073#32 = .error .unmatchedSystem := by rfl

theorem test_bytes_truncated : decodeBytes [0x13, 0, 0] = .error .truncated := by rfl

theorem test_bytes_rest : decodeBytes [0xB3, 0x81, 0x20, 0x00, 0x7F] = .ok (.add 3 1 2, [0x7F]) := by rfl

theorem test_table_word : decodeTableWord 32 0x1BF520B7 = some (.lui 1 0x1BF52) := by decide

/-! ### One step -/

/-- The state after reset with some registers set. -/
def withRegs (l : List (Reg × Word)) : State := l.foldl (fun s p => s.setX p.1 p.2) State.reset

/-- The answer of an outcome that is a next state. -/
def nextOf {α : Type} (o : Host.Outcome State Fault Refusal) (f : State → α) : Option α :=
  match o with
  | .next t => some (f t)
  | .fault _ => none
  | .refused _ => none

/-- A value read from the state after one step of a word placed at `pc`. -/
def after {α : Type} (w : InstrWord) (s : State) (f : State → α) : Option α := nextOf (step (s.placeWord w)) f

/-- Eight bytes written at an address. -/
def withDouble (s : State) (pa v : Word) : State := (s.physWrite pa .double v).getD s

/-- The memory of 42_loads_stores section 2, with `x5` its base. -/
def loadState : State := withDouble (withRegs [(5, 0x80001000)]) 0x80001008 0xF786858483828180

/-- The registers of 42_loads_stores section 3. -/
def storeState : State := withRegs [(5, 0x80001000), (6, 0x1122334455667788)]

/-- The eight bytes from an address, as one little-endian number. -/
def double (a : Nat) (t : State) : Word := Memory.readLE t.mem a 8

theorem test_lui : after 0x800002B7 State.reset (·.x 5) = some 0xFFFFFFFF80000000 := by decide
theorem test_auipc_back : after 0xFFFFF297 State.reset (·.x 5) = some 0x7FFFF000 := by decide
theorem test_jal_min : after 0x800000EF State.reset (fun t => (t.x 1, t.pc)) = some (0x80000004, 0x7FF00000) := by decide
theorem test_jalr_same_register : after 0x000080E7 (withRegs [(1, 0x80000011)]) (fun t => (t.x 1, t.pc)) = some (0x80000004, 0x80000010) := by decide
theorem test_jalr_clears_bit0 : after 0xFFD280E7 (withRegs [(5, 0x80000100)]) (·.pc) = some 0x800000FC := by decide
theorem test_beq_upper_half : after 0x00208463 (withRegs [(1, 0xFFFFFFFFFFFFFFFF), (2, 0x00000000FFFFFFFF)]) (·.pc) = some 0x80000004 := by decide
theorem test_beq_taken : after 0x00208463 (withRegs [(1, 5), (2, 5)]) (·.pc) = some 0x80000008 := by decide
theorem test_bne_taken : after 0x00209463 (withRegs [(1, 5), (2, 6)]) (·.pc) = some 0x80000008 := by decide
theorem test_blt_signed : after 0x0020C463 (withRegs [(1, 0x8000000000000000), (2, 0x7FFFFFFFFFFFFFFF)]) (·.pc) = some 0x80000008 := by decide
theorem test_bge_equal : after 0x0020D463 (withRegs [(1, 7), (2, 7)]) (·.pc) = some 0x80000008 := by decide
theorem test_bltu_unsigned : after 0x0020E463 (withRegs [(1, 0xFFFFFFFFFFFFFFFF), (2, 1)]) (·.pc) = some 0x80000004 := by decide
theorem test_bgeu_unsigned : after 0x0020F463 (withRegs [(1, 0), (2, 1)]) (·.pc) = some 0x80000004 := by decide
theorem test_lb : after 0x00828303 loadState (·.x 6) = some 0xFFFFFFFFFFFFFF80 := by decide
theorem test_lh : after 0x00929303 loadState (·.x 6) = some 0xFFFFFFFFFFFF8281 := by decide
theorem test_lw : after 0x0082A303 loadState (·.x 6) = some 0xFFFFFFFF83828180 := by decide
theorem test_ld : after 0x0092B303 loadState (·.x 6) = some 0x00F7868584838281 := by decide
theorem test_lbu : after 0x0082C303 loadState (·.x 6) = some 0x80 := by decide
theorem test_lhu : after 0x0082D303 loadState (·.x 6) = some 0x8180 := by decide
theorem test_lwu : after 0x0082E303 loadState (·.x 6) = some 0x83828180 := by decide
theorem test_ld_same_register : after 0x0082B283 loadState (·.x 5) = some 0xF786858483828180 := by decide
theorem test_lw_crosses_end : after 0x0002A303 (withRegs [(5, 0x800FFFFD)]) (fun t => (t.mcause, t.mtval, t.mepc, t.pc, t.x 6)) = some (5, 0x800FFFFD, 0x80000000, 0, 0) := by decide
theorem test_sb : after 0x00628423 storeState (double 0x80001008) = some 0x88 := by decide
theorem test_sh : after 0x006294A3 storeState (double 0x80001009) = some 0x7788 := by decide
theorem test_sw : after 0x0062A523 storeState (double 0x8000100A) = some 0x55667788 := by decide
theorem test_sd : after 0x0062B6A3 storeState (double 0x8000100D) = some 0x1122334455667788 := by decide
theorem test_sd_negative_offset : after 0xFE62BC23 storeState (double 0x80000FF8) = some 0x1122334455667788 := by decide
theorem test_sw_crosses_end : after 0x0062A023 (withRegs [(5, 0x800FFFFD), (6, 0xFFFFFFFFFFFFFFFF)]) (fun t => (t.mcause, t.mtval, t.byte 0x800FFFFD)) = some (7, 0x800FFFFD, 0) := by decide
theorem test_addi : after 0xFFF00093 State.reset (·.x 1) = some 0xFFFFFFFFFFFFFFFF := by decide
theorem test_addi_x0 : after 0x00700013 State.reset (fun t => (t.x 0, t.pc)) = some (0, 0x80000004) := by decide
theorem test_slti_equal : after 0xFFF0A113 (withRegs [(1, 0xFFFFFFFFFFFFFFFF)]) (·.x 2) = some 0 := by decide
theorem test_sltiu_minus_one : after 0xFFF0B113 (withRegs [(1, 5)]) (·.x 2) = some 1 := by decide
theorem test_xori : after 0xFFF0C113 (withRegs [(1, 0x00000000FFFF0000)]) (·.x 2) = some 0xFFFFFFFF0000FFFF := by decide
theorem test_ori : after 0x0F00E113 (withRegs [(1, 0xF0F)]) (·.x 2) = some 0xFFF := by decide
theorem test_andi : after 0x0FF0F113 (withRegs [(1, 0x123456789ABCDEF0)]) (·.x 2) = some 0xF0 := by decide
theorem test_slli : after 0x03F09113 (withRegs [(1, 3)]) (·.x 2) = some 0x8000000000000000 := by decide
theorem test_srli : after 0x0200D113 (withRegs [(1, 0xFFFFFFFF00000000)]) (·.x 2) = some 0xFFFFFFFF := by decide
theorem test_srai : after 0x4040D113 (withRegs [(1, 0xFFFFFFFFFFFFFF00)]) (·.x 2) = some 0xFFFFFFFFFFFFFFF0 := by decide
theorem test_addiw : after 0x0010811B (withRegs [(1, 0x7FFFFFFF)]) (·.x 2) = some 0xFFFFFFFF80000000 := by decide
theorem test_slliw : after 0x01F0911B (withRegs [(1, 0xFFFFFFFF00000003)]) (·.x 2) = some 0xFFFFFFFF80000000 := by decide
theorem test_srliw : after 0x01F0D11B (withRegs [(1, 0xFFFFFFFF80000000)]) (·.x 2) = some 1 := by decide
theorem test_sraiw : after 0x4040D11B (withRegs [(1, 0x0000000180000000)]) (·.x 2) = some 0xFFFFFFFFF8000000 := by decide
theorem test_add_wraps : after 0x002081B3 (withRegs [(1, 0xFFFFFFFFFFFFFFFF), (2, 1)]) (·.x 3) = some 0 := by decide
theorem test_sub_wraps : after 0x402081B3 (withRegs [(1, 0), (2, 1)]) (·.x 3) = some 0xFFFFFFFFFFFFFFFF := by decide
theorem test_sll_64 : after 0x002091B3 (withRegs [(1, 1), (2, 64)]) (·.x 3) = some 1 := by decide
theorem test_slt : after 0x0020A1B3 (withRegs [(1, 0xFFFFFFFFFFFFFFFF), (2, 0)]) (·.x 3) = some 1 := by decide
theorem test_sltu : after 0x0020B1B3 (withRegs [(1, 0), (2, 0xFFFFFFFFFFFFFFFF)]) (·.x 3) = some 1 := by decide
theorem test_xor : after 0x0020C1B3 (withRegs [(1, 0xFF00FF00FF00FF00), (2, 0x0FF00FF00FF00FF0)]) (·.x 3) = some 0xF0F0F0F0F0F0F0F0 := by decide
theorem test_srl_63 : after 0x0020D1B3 (withRegs [(1, 0x8000000000000000), (2, 63)]) (·.x 3) = some 1 := by decide
theorem test_sra_4 : after 0x4020D1B3 (withRegs [(1, 0x8000000000000000), (2, 4)]) (·.x 3) = some 0xF800000000000000 := by decide
theorem test_or : after 0x0020E1B3 (withRegs [(1, 0xFF00FF00FF00FF00), (2, 0x0FF00FF00FF00FF0)]) (·.x 3) = some 0xFFF0FFF0FFF0FFF0 := by decide
theorem test_and : after 0x0020F1B3 (withRegs [(1, 0xFF00FF00FF00FF00), (2, 0x0FF00FF00FF00FF0)]) (·.x 3) = some 0x0F000F000F000F00 := by decide
theorem test_addw : after 0x002081BB (withRegs [(1, 0x7FFFFFFF), (2, 1)]) (·.x 3) = some 0xFFFFFFFF80000000 := by decide
theorem test_subw : after 0x402081BB (withRegs [(1, 0x80000000), (2, 1)]) (·.x 3) = some 0x7FFFFFFF := by decide
theorem test_sllw_32 : after 0x002091BB (withRegs [(1, 1), (2, 32)]) (·.x 3) = some 1 := by decide
theorem test_srlw_0 : after 0x0020D1BB (withRegs [(1, 0xFFFFFFFF80000000), (2, 0)]) (·.x 3) = some 0xFFFFFFFF80000000 := by decide
theorem test_sraw : after 0x4020D1BB (withRegs [(1, 0x80000000), (2, 4)]) (·.x 3) = some 0xFFFFFFFFF8000000 := by decide
theorem test_fence_i : after 0x0000100F State.reset (fun t => (t.pc, t.x 1)) = some (0x80000004, 0) := by decide
theorem test_ecall : after 0x00000073 (State.reset.setCsr 0x305 0x80000100) (fun t => (t.mepc, t.mcause, t.mtval, t.mstatus, t.pc)) = some (0x80000000, 11, 0, 0x1800, 0x80000100) := by decide
theorem test_ecall_user : after 0x00000073 ({ State.reset with priv := .user } : State) (fun t => (t.mcause, t.mstatus, t.priv)) = some (8, 0, .machine) := by decide
theorem test_ebreak : after 0x00100073 (State.reset.setCsr 0x305 0x80000101) (fun t => (t.mcause, t.pc, t.debugTrap)) = some (3, 0x80000100, true) := by decide
theorem test_mret : after 0x30200073 ((State.reset.setCsr 0x300 0x880).setCsr 0x341 0x80000040) (fun t => (t.mstatus, t.priv, t.pc)) = some (0x888, .supervisor, 0x80000040) := by decide
theorem test_csrrw : after 0x305312F3 (State.reset.setX 6 0x80000100) (fun t => (t.mtvec, t.x 5)) = some (0x80000100, 0) := by decide
theorem test_csrrw_slot_0 : after 0x000312F3 (State.reset.setX 6 0x80000100) (fun t => (t.csr 0, t.x 5)) = some (0, 0) := by decide
theorem test_csrrs : after 0x300322F3 ((State.reset.setX 6 8).setCsr 0x300 0x80) (fun t => (t.mstatus, t.x 5)) = some (0x88, 0x80) := by decide
theorem test_csrrc : after 0x300332F3 ((State.reset.setX 6 8).setCsr 0x300 0x88) (fun t => (t.mstatus, t.x 5)) = some (0x80, 0x88) := by decide
theorem test_csrrwi : after 0x340FD2F3 (State.reset.setCsr 0x340 0xFFFFFFFFFFFFFFFF) (fun t => (t.csr 0x340, t.x 5)) = some (0x1F, 0xFFFFFFFFFFFFFFFF) := by decide
theorem test_csrrsi : after 0x300462F3 State.reset (fun t => (t.mstatus, t.x 5)) = some (8, 0) := by decide
theorem test_csrrci : after 0x300472F3 ((State.reset.setX 6 8).setCsr 0x300 0x88) (fun t => (t.mstatus, t.x 5)) = some (0x80, 0x88) := by decide

/-- An illegal word leaves the registers and traps (30_encoding R128). -/
theorem test_illegal_traps : after 0 (withRegs [(1, 7)]) (fun t => (t.mcause, t.mtval, t.mepc, t.x 1)) = some (2, 0, 0x80000000, 7) := by
  decide

/-- A fetch outside every region traps with `pc` as the trap value (20_memory R70). -/
theorem test_fetch_fault : nextOf (step { State.reset with pc := 0x800FFFFE }) (fun t => (t.mcause, t.mtval, t.mepc)) =
    some (1, 0x800FFFFE, 0x800FFFFE) := by decide

/-- Under `TRAP_GATE_OBSERVED` a trap with a bit missing changes only the outputs (60_exceptions R271). -/
theorem test_gate_closed :
    after 0x00000073 { State.reset with params := { Params.default with trapGateObserved := true } }
      (fun t => (t.pc, t.mepc, t.mcause, t.faultOut)) = some (0x80000000, 0, 0, some .environmentCallFromM) := by decide

/-- The debugger's names (70_reset_and_hazards R313). -/
theorem test_debug_names : debugResolve "pc" = some .pc ∧ debugResolve "31" = some (.gpr 31) ∧ debugResolve "a0" = some (.gpr 10) ∧
    debugResolve "mtvec" = some (.csr 0x305) ∧ debugResolve "priv" = none := by decide

/-! ### Translation (95_test_vectors 2.16 in small) -/

/-- Sv39 with the root table at `0x8000_2000`. Virtual page 0 goes to page `0x80005` with R and W, page 1 with X only, page 2 with R
only; page 3 is not valid. -/
def sv39State : State :=
  let s := withDouble (State.reset.setCsr 0x180 0x8000000000080002) 0x80002000 (0x80003 * 1024 + 1)
  let s := withDouble s 0x80003000 (0x80004 * 1024 + 1)
  let s := withDouble s 0x80004000 (0x80005 * 1024 + 7)
  let s := withDouble s 0x80004008 (0x80005 * 1024 + 9)
  withDouble s 0x80004010 (0x80005 * 1024 + 3)

theorem test_sv39_leaf : sv39State.translate 0xABC = .ok 0x80005ABC true true false := by decide

theorem test_sv39_high_bits_ignored : sv39State.translate 0xFFFFFF8000000ABC = .ok 0x80005ABC true true false := by decide

theorem test_sv39_invalid : sv39State.translate 0x3000 = .fail := by decide

/-- A leaf above the last level maps its page with the 12-bit offset alone (20_memory R87). -/
theorem test_sv39_high_leaf : (withDouble sv39State 0x80002000 (0x80006 * 1024 + 3)).translate 0x12345678 = .ok 0x80006678 true false false := by
  decide

/-! ### Witnesses: the hypotheses of the obligations can be met, each clause at a boundary where it has one -/

/-- An outcome that is a next state with a property. -/
theorem exists_next {o : Host.Outcome State Fault Refusal} {p : State → Bool} (h : nextOf o p = some true) :
    ∃ t, o = .next t ∧ p t = true := by
  cases o with
  | next t => exact ⟨t, rfl, by simpa [nextOf] using h⟩
  | fault r => cases h
  | refused r => cases h

theorem legal_default : LegalMap State.reset.params.regions := (legalRegions_iff _).1 (by decide)

theorem region_default {pa n : Nat} (h1 : 0x80000000 ≤ pa) (h2 : pa + n ≤ 0x80100000) : InOneRegion State.reset.params.regions pa n :=
  ⟨⟨0x80000000, 0x100000⟩, List.mem_singleton.2 rfl, h1, h2⟩

/-- A word placed at the reset `pc`. -/
def at0 (w : InstrWord) : State := State.reset.placeWord w

/-- The same in a given mode. -/
def atMode (m : PrivMode) (w : InstrWord) : State := { at0 w with priv := m }

/-- The reset state with other parameters. -/
def withParams (p : Params) : State := State.resetWith p []

/-- The reset state with `satp.MODE` a reserved value. -/
def reservedMode : State := State.reset.setCsr 0x180 0x1000000000000000

/-- The reset state with every translation mode implemented and the given one selected. -/
def allModes (satp : Word) : State :=
  (withParams { Params.default with satpModes := [.bare, .sv39, .sv48, .sv57] }).setCsr 0x180 satp

/-- The reset state with the gate of R271 observed. -/
def gated : State := withParams { Params.default with trapGateObserved := true }

/-- The same with the three bits set. -/
def gateOpen : State := ((gated.setCsr 0x300 8).setCsr 0x304 8).setCsr 0x344 8

theorem witness_DecodeOfEncode : Instr.wellFormed (.jal 31 (-1048576)) = true ∧ Instr.wellFormed (.bgeu 31 31 4094) = true ∧
    Instr.wellFormed (.fence 15 15 15 31 7 31) = true := by decide

theorem witness_EncodeOfDecode : ∃ i, decode 0xFFFFFFE3#32 = .ok i := ⟨_, rfl⟩

/-- A row, a word it selects, and a word no row selects: `OpcodeTableSelects`, `IllegalWordsTrap` (table clause). -/
theorem witness_OpcodeTableSelects : (⟨"SRAW", 0xFE00707F#32, 0x4000503B#32⟩ : OpcodeRow) ∈ opcodeRows ∧
    OpcodeRow.selects ⟨"SRAW", 0xFE00707F#32, 0x4000503B#32⟩ 0x4020D1BB#32 = true ∧
    ∀ r ∈ opcodeRows, r.selects 0x00000000#32 = false := by decide

theorem witness_IllegalWordsTrap_short : (0x00000001#32).toNat % 4 ≠ 3 := by decide

theorem witness_IllegalWordsTrap_opcode : opcodeOf 0x1000202F#32 = 0b0101111#7 := by decide

theorem witness_IllegalWordsTrap_op : opcodeOf 0x022081B3#32 = 0b0110011#7 ∧ funct7Of 0x022081B3#32 ≠ 0b0000000#7 ∧
    funct7Of 0x022081B3#32 ≠ 0b0100000#7 ∧ opcodeOf 0x022081BB#32 = 0b0111011#7 := by decide

theorem witness_IllegalWordsTrap_system : opcodeOf 0x10200073#32 = 0b1110011#7 ∧ funct3Of 0x10200073#32 = 0b000#3 ∧
    0x10200073#32 ≠ 0x00000073#32 ∧ 0x10200073#32 ≠ 0x00100073#32 ∧ 0x10200073#32 ≠ 0x30200073#32 := by decide

theorem witness_IllegalWordsTrap_step : LegalMap (at0 0x10200073).params.regions ∧ (at0 0x10200073).fetch = some 0x10200073#32 ∧
    decode 0x10200073#32 = .error .unmatchedSystem := ⟨legal_default, by decide, rfl⟩

/-- An instruction that writes `x0`, as the first step: `ZeroRegisterLaw`, `CsrWriteLaw`, `ParametersNeverChange`,
`IllegalMapRefused` (second clause). -/
theorem witness_step : (at0 0x00700013).gpr[0] = 0#64 ∧ ∃ t, step (at0 0x00700013) = .next t ∧ (t.pc == 0x80000004#64) = true :=
  ⟨by decide, exists_next (by decide)⟩

theorem witness_ResetLeavesSpecState : ∃ s : State, State.reset = s.applyReset := ⟨State.reset, rfl⟩

theorem witness_LookupRule : LegalMap [⟨0, 1⟩, ⟨0x80000000, 0x100000⟩, ⟨2 ^ 64 - 1, 1⟩] := (legalRegions_iff _).1 (by decide)

theorem witness_Phys_hit : lookup State.reset.params.regions 0x800FFFFC 4 = some ⟨0x80000000, 0x100000⟩ ∧
    lookup State.reset.params.regions 0x80000000 8 = some ⟨0x80000000, 0x100000⟩ := by decide

theorem witness_Phys_miss : lookup State.reset.params.regions 0x800FFFFD 4 = none ∧ lookup State.reset.params.regions 0x7FFFFFFF 1 = none ∧
    lookup State.reset.params.regions 0x80100000 1 = none := by decide

theorem witness_AccessNeedsOneRegion_top : LegalMap State.reset.params.regions ∧
    2 ^ 64 < (0xFFFFFFFFFFFFFFF9#64).toNat + Width.double.bytes := ⟨legal_default, by decide⟩

theorem witness_NarrowReadsSeeWideWrite : LegalMap State.reset.params.regions ∧
    ∃ t, State.reset.physWrite 0x800FFFF8#64 .double 0x1122334455667788#64 = some t :=
  ⟨legal_default, Option.isSome_iff_exists.1 (by decide)⟩

/-- An image at the top of the address space. -/
theorem witness_LoadImageStoresImage : (0xFFFFFFFFFFFFFFFE#64).toNat + [0x12#8, 0x34#8].length ≤ 2 ^ 64 ∧
    ∃ t, (withParams { Params.default with regions := [⟨2 ^ 64 - 4096, 4096⟩] }).loadImage 0xFFFFFFFFFFFFFFFE#64 [0x12#8, 0x34#8] = some t :=
  ⟨by decide, Option.isSome_iff_exists.1 (by decide)⟩

theorem witness_PlacedWordIsFetched : LegalMap State.reset.params.regions ∧ InOneRegion State.reset.params.regions State.reset.pc.toNat 4 :=
  ⟨legal_default, region_default (by decide) (by decide)⟩

theorem witness_BareIsIdentity : InMode State.reset .bare := ⟨by decide, by decide⟩

theorem witness_TranslateMeetsWalk : InMode sv39State .sv39 ∧ InMode (allModes 0x9000000000080002) .sv48 ∧
    InMode (allModes 0xA000000000080002) .sv57 := ⟨⟨by decide, by decide⟩, ⟨by decide, by decide⟩, ⟨by decide, by decide⟩⟩

theorem witness_TranslateReadsOnlySatpAndMemory : (atMode .user 0).params = (at0 0).params ∧
    (atMode .user 0).csr 0x180#12 = (at0 0).csr 0x180#12 ∧ SameMem (at0 0) (atMode .user 0) := ⟨rfl, rfl, fun _ => rfl⟩

theorem witness_JumpRules : (BitVec.ofInt 21 (-1048576)).toNat % 2 = 0 ∧ (BitVec.ofInt 21 1048574).toNat % 2 = 0 := by decide

theorem witness_BranchRules : (BitVec.ofInt 13 (-4096)).toNat % 2 = 0 ∧ (BitVec.ofInt 13 4094).toNat % 2 = 0 := by decide

theorem witness_OpImmRules_slli : opcodeOf 0x04109113#32 = 0b0010011#7 ∧ funct3Of 0x04109113#32 = 0b001#3 ∧
    funct6Of 0x04109113#32 ≠ 0b000000#6 := by decide

theorem witness_OpImmRules_srli : opcodeOf 0x0410D113#32 = 0b0010011#7 ∧ funct3Of 0x0410D113#32 = 0b101#3 ∧
    funct6Of 0x0410D113#32 ≠ 0b000000#6 ∧ funct6Of 0x0410D113#32 ≠ 0b010000#6 := by decide

theorem witness_OpImm32Rules : opcodeOf 0x0200911B#32 = 0b0011011#7 ∧ funct3Of 0x0200911B#32 = 0b001#3 ∧
    funct7Of 0x0200911B#32 = 0b0000001#7 := by decide

theorem witness_FenceRule : opcodeOf 0xFFFFFF8F#32 = 0b0001111#7 := by decide

theorem witness_HintsOnlyAdvancePc : rdOf (encode (.slli 0 31 63)) = 0#5 ∧ opcodeOf (encode (.slli 0 31 63)) = 0b0010011#7 := by decide

theorem witness_LoadRules_unsupported : reservedMode.translate 0x80000000#64 = .unsupported := by decide

theorem witness_LoadRules_fail : sv39State.translate 0x3000#64 = .fail := by decide

theorem witness_LoadRules_notReadable : sv39State.translate 0x1000#64 = .ok 0x80005000#64 false false true := by decide

theorem witness_LoadRules_unbacked : State.reset.translate 0x800FFFF9#64 = .ok 0x800FFFF9#64 true true true ∧
    backed State.reset.params.regions (0x800FFFF9#64).toNat Width.double.bytes = false := by decide

theorem witness_LoadRules_backed : State.reset.translate 0x800FFFF8#64 = .ok 0x800FFFF8#64 true true true ∧
    backed State.reset.params.regions (0x800FFFF8#64).toNat Width.double.bytes = true := by decide

theorem witness_StoreRules_notWritable : sv39State.translate 0x2000#64 = .ok 0x80005000#64 true false false := by decide

theorem witness_StoreRules_writable : sv39State.translate 0x0#64 = .ok 0x80005000#64 true true false ∧
    backed sv39State.params.regions (0x80005000#64).toNat Width.word.bytes = true := by decide

theorem witness_StoresAreSeen : LegalMap storeState.params.regions ∧ InMode storeState .bare ∧
    InOneRegion storeState.params.regions (BitVec.ofInt 64 ((storeState.x 5).toInt + (BitVec.ofInt 12 (-8)).toInt)).toNat 8 ∧
    storeState.translate (BitVec.ofInt 64 ((storeState.x 5).toInt + (0#12).toInt)) = .ok 0x80001000#64 true true true ∧
    backed storeState.params.regions (0x80001000#64).toNat 4 = true :=
  ⟨legal_default, ⟨by decide, by decide⟩, region_default (by decide) (by decide), by decide, by decide⟩

theorem witness_EcallRule : modeNumber (atMode .user 0).priv = 0 ∧ modeNumber (atMode .supervisor 0).priv = 1 ∧
    modeNumber (atMode .hypervisor 0).priv = 2 ∧ modeNumber (at0 0).priv = 3 := ⟨rfl, rfl, rfl, rfl⟩

theorem witness_CsrRules : opcodeOf 0x00004073#32 = 0b1110011#7 ∧ funct3Of 0x00004073#32 = 0b100#3 := by decide

/-- The gate off, open and closed: `TrapEntryRule`, `CauseAndValueOfEveryKind`, `TrapAndReturn`. -/
theorem witness_NotGated : NotGated State.reset ∧ NotGated gateOpen ∧ ¬NotGated gated := by
  refine ⟨.inl rfl, .inr ⟨rfl, rfl, rfl⟩, ?_⟩
  rintro (h | ⟨h, -, -⟩) <;> cases h

/-- The fault reported by the first step of a word from a state. -/
def faultOf (w : InstrWord) (s : State) : Option (Option Exception) := after w s (·.faultOut)

theorem witness_Faults_fetch : nextOf (step { State.reset with pc := 0x800FFFFD }) (·.faultOut) =
    some (some (.instructionAccessFault 0x800FFFFD)) := by decide

theorem witness_Faults_illegal : faultOf 0xFFFFFFFF State.reset = some (some .illegalInstruction) := by decide

theorem witness_Faults_breakpoint : faultOf 0x00100073 State.reset = some (some .breakpoint) := by decide

theorem witness_Faults_ecall : faultOf 0x00000073 State.reset = some (some .environmentCallFromM) ∧
    faultOf 0x00000073 (atMode .user 0) = some (some .environmentCallFromU) ∧
    faultOf 0x00000073 (atMode .supervisor 0) = some (some .environmentCallFromS) ∧
    faultOf 0x00000073 (atMode .hypervisor 0) = some (some .environmentCallFromH) := by decide

theorem witness_Faults_load : faultOf 0x00003003 State.reset = some (some (.loadAccessFault 0)) ∧
    faultOf 0x0002B003 (sv39State.setX 5 0x1000) = some (some (.loadPageFault 0x1000)) := by decide

theorem witness_Faults_store : faultOf 0x00003023 State.reset = some (some (.storeAccessFault 0)) ∧
    faultOf 0x0002B023 (sv39State.setX 5 0x2000) = some (some (.storePageFault 0x2000)) := by decide

/-- A trap taken: `TrapCausesAreSmall`, `TrapsArePrecise`, `DebugTrapOnlyByEbreak`. -/
theorem witness_trap : NotGated (at0 0x00100073) ∧
    ∃ t, step (at0 0x00100073) = .next t ∧ (t.faultOut == some .breakpoint && t.debugTrap) = true :=
  ⟨.inl rfl, exists_next (by decide)⟩

theorem witness_NestedTraps : LegalMap ({ State.reset with pc := 0 } : State).params.regions ∧
    State.reset.params.trapGateObserved = false ∧ (0#64) = BitVec.ofNat 64 ((State.reset.csr 0x305#12).toNat / 4 * 4) ∧
    ({ State.reset with pc := 0 } : State).fetch = none := ⟨legal_default, rfl, rfl, by decide⟩

theorem witness_StepRunsDecodedInstruction : LegalMap (at0 0x002081B3).params.regions ∧ (at0 0x002081B3).fetch = some 0x002081B3#32 ∧
    decode 0x002081B3#32 = .ok (.add 3 1 2) := ⟨legal_default, by decide, rfl⟩

theorem witness_FetchRule_hit : InOneRegion State.reset.params.regions 0x800FFFFC 4 := region_default (by decide) (by decide)

theorem witness_FetchRule_miss : ¬InOneRegion State.reset.params.regions 0x800FFFFD 4 := by
  rw [← backed_iff legal_default (by decide)]
  decide

theorem witness_IllegalMapRefused : ¬LegalMap [⟨0, 0x1000⟩, ⟨0xFFF, 1⟩] ∧ ¬LegalMap [⟨0, 0⟩] ∧ ¬LegalMap [⟨1, 2 ^ 64⟩] := by
  simp only [← legalRegions_iff]
  decide

theorem witness_OnlyUnsupportedAccessesRefused : exec (.lb 0 0 0) reservedMode = .refused .translationNotImplemented := by rfl

theorem witness_StepCompletes : State.reset.Ready := ⟨legal_default, .bare, by decide, by decide⟩

/-- A state with a word in memory, a CSR of the sparse bank written and a register set meets the invariant, and steps on. -/
theorem witness_InvariantKept : (((at0 0x00100073).setCsr 0x340 5).setX 1 7).Inv ∧
    ∃ t, step (((at0 0x00100073).setCsr 0x340 5).setX 1 7) = .next t ∧ (t.x 1 == 7#64) = true :=
  ⟨⟨by decide, by decide, by decide, by decide, by decide, by decide, nofun⟩,
    exists_next (by decide)⟩

theorem witness_ModeChanges_trap : ∃ t, step (atMode .user 0x00000073) = .next t ∧ (t.priv == .machine && t.priv != .user) = true :=
  exists_next (by decide)

theorem witness_ModeChanges_mret : ∃ t, step (at0 0x30200073) = .next t ∧ (t.priv == .user) = true := exists_next (by decide)

/-- Steps in two modes that fault: the trap is taken, at an illegal word, to Machine from both. -/
theorem witness_ModeAffects_trap : (atMode .user 0xFFFFFFFF).fetch = some 0xFFFFFFFF#32 ∧
    (∃ t, step (atMode .user 0xFFFFFFFF) = .next t ∧ (t.faultOut == some .illegalInstruction && t.priv == .machine) = true) ∧
    ∃ u, step { atMode .user 0xFFFFFFFF with priv := .supervisor } = .next u ∧
      (u.faultOut == some .illegalInstruction && u.priv == .machine) = true :=
  ⟨by decide, exists_next (by decide), exists_next (by decide)⟩

/-- The same with the gate closed: each keeps its mode. -/
theorem witness_ModeAffects_held :
    (∃ t, step { gated with priv := .user } = .next t ∧ (t.faultOut == some .illegalInstruction && t.priv == .user) = true) ∧
    ∃ u, step { gated with priv := .supervisor } = .next u ∧ (u.faultOut == some .illegalInstruction && u.priv == .supervisor) = true :=
  ⟨exists_next (by decide), exists_next (by decide)⟩

/-- An ECALL in two modes: `fault_out`, `mcause` and MPP differ. -/
theorem witness_ModeAffects_ecall : (atMode .user 0x00000073).fetch = some 0x00000073#32 ∧
    (∃ t, step (atMode .user 0x00000073) = .next t ∧ (t.csr 0x342#12 == 8#64 && t.csr 0x300#12 == 0#64) = true) ∧
    ∃ u, step { atMode .user 0x00000073 with priv := .supervisor } = .next u ∧
      (u.csr 0x342#12 == 9#64 && u.csr 0x300#12 == 0x800#64) = true :=
  ⟨by decide, exists_next (by decide), exists_next (by decide)⟩

/-- A plain step: `ModeAffectsOnlyEcallAndMpp`, `OutputsAreNotReadBack`, `PcAdvancesByFour`, `RegisterWriters`. -/
theorem witness_plainStep : (at0 0xFFF00093).fetch = some 0xFFF00093#32 ∧ (0xFFF00093#32) ≠ 0x00000073#32 ∧
    opcodeOf 0xFFF00093#32 = 0b0010011#7 ∧
    ∃ t, step (at0 0xFFF00093) = .next t ∧ (t.faultOut == none && t.x 1 != (at0 0xFFF00093).x 1) = true :=
  ⟨by decide, by decide, by decide, exists_next (by decide)⟩

theorem witness_CsrWriters_csr : ∃ t, step (at0 0x340FD2F3) = .next t ∧ (t.csr 0x340#12 != (at0 0x340FD2F3).csr 0x340#12) = true :=
  exists_next (by decide)

theorem witness_CsrWriters_trap : ∃ t, step (at0 0x00000073) = .next t ∧ (t.csr 0x342#12 != (at0 0x00000073).csr 0x342#12) = true :=
  exists_next (by decide)

theorem witness_CsrWriters_mret : ∃ t, step ((at0 0x30200073).setCsr 0x300 0x80) = .next t ∧
    (t.csr 0x300#12 != ((at0 0x30200073).setCsr 0x300 0x80).csr 0x300#12) = true := exists_next (by decide)

theorem witness_MemoryWriters : ∃ t, step (storeState.placeWord 0x0062B6A3) = .next t ∧
    (t.byte 0x80001014 != (storeState.placeWord 0x0062B6A3).byte 0x80001014) = true := exists_next (by decide)

theorem witness_RunStopsAtDebugTrap : ∃ t, runUntilDebugTrap 1 (at0 0x00100073) = some t := Option.isSome_iff_exists.1 (by decide)

end Sys2Proof.Tests
end

section
/-! PROOF. The statements of 00_scope: the parameters (R9) are changed by no step, and the diagnostic outputs (R11) are read by none. -/

namespace Sys2Proof.Machine

/-! ### The parameters (R9) -/

/-- No effect of an instruction changes a parameter. -/
theorem Effect.params_eq {i : Instr} {s t : State} {o : Host.Outcome State Fault Refusal} (h : Effect i s o) (ho : o = .next t) :
    t.params = s.params := by
  cases h <;> cases ho
  case retire => exact State.retire_params ..
  case jump => exact State.setX_params ..
  case onlyPc => exact State.setPc_params ..
  case store => exact State.advance_params _
  case csr => exact (State.retire_params ..).trans (State.setCsr_params ..)
  case raise => exact State.raise_params ..
  case ret => exact State.returnFromTrap_params _

/-- Settles O50: of the three ways a step ends (`step_next`), two raise an exception and the third has an instruction's effect. -/
theorem parametersNeverChange : Obligations.ParametersNeverChange := by
  intro s t h
  obtain ⟨-, ⟨-, rfl⟩ | ⟨w, e, -, -, rfl⟩ | ⟨w, i, -, -, hx⟩⟩ := step_next h
  · exact State.raise_params ..
  · exact State.raise_params ..
  · exact (exec_effect i (s.beginStep.latchInstr w)).params_eq hx

/-! ### The diagnostic outputs (R11) -/

/-- A step clears `fault_out` and `debug_trap` before it does anything else, so of other outputs only `instr_out` is left to matter. -/
theorem step_otherOutputs (s : State) (f : Option Exception) (d : Bool) (w : InstrWord) :
    step { s with faultOut := f, debugTrap := d, instrOut := w } = step (s.latchInstr w) := rfl

/-- A fetched word takes the place of whatever `instr_out` held. -/
theorem step_latchInstr_of_fetch {s : State} {v : InstrWord} (hf : s.fetch = some v) (w : InstrWord) :
    step (s.latchInstr w) = step s := by
  have hb : s.beginStep.fetch = some v := hf
  have hl : (s.latchInstr w).beginStep.fetch = some v := hf
  have hrun : fetchAndRun (s.latchInstr w).beginStep = fetchAndRun s.beginStep := by
    unfold fetchAndRun
    rw [hb, hl]
    rfl
  unfold step runCycle
  rw [hrun, State.latchInstr_params]

/-- Trap entry neither reads nor writes `instr_out`. -/
theorem State.raise_latchInstr (s : State) (w : InstrWord) (e : Exception) :
    (s.latchInstr w).raise e = (s.raise e).latchInstr w := by
  unfold State.raise State.trapEntry
  rw [apply_ite (State.latchInstr · w)]
  rfl

/-- A step whose fetch fails carries `instr_out` through. -/
theorem step_latchInstr_of_noFetch {s t : State} (hf : s.fetch = none) (h : step s = .next t) (w : InstrWord) :
    step (s.latchInstr w) = .next (t.latchInstr w) := by
  obtain ⟨hl, ⟨-, rfl⟩ | ⟨v, e, hv, -, -⟩ | ⟨v, i, hv, -, -⟩⟩ := step_next h
  · have hb : (s.latchInstr w).beginStep.fetch = none := hf
    unfold step runCycle fetchAndRun
    rw [State.latchInstr_params, if_pos hl, hb, ← State.raise_latchInstr]
    rfl
  · simp [hf] at hv
  · simp [hf] at hv

/-- Settles O53: with a word fetched the two steps are the same; with none they differ in `instr_out` alone. -/
theorem outputsAreNotReadBack : Obligations.OutputsAreNotReadBack := by
  intro s t f d w h
  rw [step_otherOutputs]
  cases hf : s.fetch with
  | some v =>
    rw [step_latchInstr_of_fetch hf]
    exact ⟨t, h, rfl, rfl, fun _ => rfl, fun _ => rfl, fun _ => rfl, rfl, rfl, rfl, fun _ => rfl⟩
  | none =>
    exact ⟨t.latchInstr w, step_latchInstr_of_noFetch hf h w, rfl, rfl, t.x_latchInstr w, t.csr_latchInstr w, fun _ => rfl, rfl, rfl, rfl,
      fun hne => absurd rfl hne⟩

end Sys2Proof.Machine
end

section
/-! PROOF. The statements of 10_state: the general registers (R20 to R23), `pc` (R24 to R26), the CSR bank (R29 to R43), reset (R48), and
the invariant that every step keeps. What a step can do is told by the word it fetched, so the first part shows that a word is the
encoding of what it decodes to. -/

namespace Sys2Proof

/-! ### A word is put together from its fields (R111 to R116) -/

theorem encR_of_fields {w : InstrWord} {f7 : BitVec 7} {f3 : BitVec 3} {op : BitVec 7} (h7 : funct7Of w = f7) (h3 : funct3Of w = f3)
    (hop : opcodeOf w = op) : encR f7 (rs2Of w) (rs1Of w) f3 (rdOf w) op = w := by
  subst h7 h3 hop
  simp only [encR, funct7Of, rs2Of, rs1Of, funct3Of, rdOf, opcodeOf, extractLsb'_adjacent w 20 5, extractLsb'_adjacent w 15 5,
    extractLsb'_adjacent w 12 3, extractLsb'_adjacent w 7 5, extractLsb'_adjacent w 0 7, extractLsb'_whole]

theorem encI_of_fields {w : InstrWord} {f3 : BitVec 3} {op : BitVec 7} (h3 : funct3Of w = f3) (hop : opcodeOf w = op) :
    encI (immIOf w) (rs1Of w) f3 (rdOf w) op = w := by
  subst h3 hop
  simp only [encI, immIOf, rs1Of, funct3Of, rdOf, opcodeOf, extractLsb'_adjacent w 15 5, extractLsb'_adjacent w 12 3,
    extractLsb'_adjacent w 7 5, extractLsb'_adjacent w 0 7, extractLsb'_whole]

theorem encShift6_of_fields {w : InstrWord} {f6 : BitVec 6} {f3 : BitVec 3} {op : BitVec 7} (h6 : funct6Of w = f6)
    (h3 : funct3Of w = f3) (hop : opcodeOf w = op) : encShift6 f6 (shamt6Of w) (rs1Of w) f3 (rdOf w) op = w := by
  subst h6 h3 hop
  simp only [encShift6, funct6Of, shamt6Of, rs1Of, funct3Of, rdOf, opcodeOf, extractLsb'_adjacent w 20 6, extractLsb'_adjacent w 15 5,
    extractLsb'_adjacent w 12 3, extractLsb'_adjacent w 7 5, extractLsb'_adjacent w 0 7, extractLsb'_whole]

theorem encU_of_fields {w : InstrWord} {op : BitVec 7} (hop : opcodeOf w = op) : encU (immUOf w) (rdOf w) op = w := by
  subst hop
  simp only [encU, immUOf, rdOf, opcodeOf, extractLsb'_adjacent w 7 5, extractLsb'_adjacent w 0 7, extractLsb'_whole]

theorem encS_of_fields {w : InstrWord} {f3 : BitVec 3} {op : BitVec 7} (h3 : funct3Of w = f3) (hop : opcodeOf w = op) :
    encS (immSOf w) (rs2Of w) (rs1Of w) f3 op = w := by
  subst h3 hop
  simp (disch := decide) only [encS, immSOf, rs2Of, rs1Of, funct3Of, opcodeOf, extractLsb'_append_upper, extractLsb'_append_lower,
    Nat.sub_self, extractLsb'_adjacent w 20 5, extractLsb'_adjacent w 15 5, extractLsb'_adjacent w 12 3, extractLsb'_adjacent w 7 5,
    extractLsb'_adjacent w 0 7, extractLsb'_whole]

theorem encB_of_fields {w : InstrWord} {f3 : BitVec 3} {op : BitVec 7} (h3 : funct3Of w = f3) (hop : opcodeOf w = op) :
    encB (immBOf w) (rs2Of w) (rs1Of w) f3 op = w := by
  subst h3 hop
  simp (disch := decide) only [encB, immBOf, rs2Of, rs1Of, funct3Of, opcodeOf, extractLsb'_append_upper, extractLsb'_append_lower,
    Nat.reduceSub, Nat.sub_self, extractLsb'_adjacent w 25 6, extractLsb'_adjacent w 20 5, extractLsb'_adjacent w 15 5,
    extractLsb'_adjacent w 12 3, extractLsb'_adjacent w 8 4, extractLsb'_adjacent w 7 1, extractLsb'_adjacent w 0 7, extractLsb'_whole]

theorem encJ_of_fields {w : InstrWord} {op : BitVec 7} (hop : opcodeOf w = op) : encJ (immJOf w) (rdOf w) op = w := by
  subst hop
  simp (disch := decide) only [encJ, immJOf, rdOf, opcodeOf, extractLsb'_append_upper, extractLsb'_append_lower, Nat.reduceSub,
    Nat.sub_self, extractLsb'_adjacent w 21 10, extractLsb'_adjacent w 20 1, extractLsb'_adjacent w 12 8, extractLsb'_adjacent w 7 5,
    extractLsb'_adjacent w 0 7, extractLsb'_whole]

/-! ### A word is the encoding of what it decodes to (R127), table by table -/

theorem encode_decodeFence {w : InstrWord} (hop : opcodeOf w = 0b0001111#7) : encode (decodeFence w) = w := by
  have himm : w.extractLsb' 28 4 ++ w.extractLsb' 24 4 ++ w.extractLsb' 20 4 = immIOf w := by
    simp only [immIOf, extractLsb'_adjacent w 24 4, extractLsb'_adjacent w 20 4]
  exact (congrArg (encI · (rs1Of w) (funct3Of w) (rdOf w) _) himm).trans (encI_of_fields rfl hop)

theorem encode_of_decodeBranch {w : InstrWord} {i : Instr} (hop : opcodeOf w = 0b1100011#7) (h : decodeBranch w = .ok i) :
    encode i = w := by
  unfold decodeBranch at h
  split at h <;> cases h <;> exact encB_of_fields ‹_› hop

theorem encode_of_decodeLoad {w : InstrWord} {i : Instr} (hop : opcodeOf w = 0b0000011#7) (h : decodeLoad w = .ok i) :
    encode i = w := by
  unfold decodeLoad at h
  split at h <;> cases h <;> exact encI_of_fields ‹_› hop

theorem encode_of_decodeStore {w : InstrWord} {i : Instr} (hop : opcodeOf w = 0b0100011#7) (h : decodeStore w = .ok i) :
    encode i = w := by
  unfold decodeStore at h
  split at h <;> cases h <;> exact encS_of_fields ‹_› hop

/-- The one `funct3` that the other arms of OP-IMM leave. -/
theorem funct3_eq_five {f : BitVec 3} (h0 : f ≠ 0b000#3) (h2 : f ≠ 0b010#3) (h3 : f ≠ 0b011#3) (h4 : f ≠ 0b100#3) (h6 : f ≠ 0b110#3)
    (h7 : f ≠ 0b111#3) (h1 : f ≠ 0b001#3) : f = 0b101#3 := by bv_omega

/-- The one `funct3` that the other arms of OP leave. -/
theorem funct3_eq_seven {f : BitVec 3} (h0 : f ≠ 0b000#3) (h1 : f ≠ 0b001#3) (h2 : f ≠ 0b010#3) (h3 : f ≠ 0b011#3) (h4 : f ≠ 0b100#3)
    (h5 : f ≠ 0b101#3) (h6 : f ≠ 0b110#3) : f = 0b111#3 := by bv_omega

theorem encode_of_decodeOpImm {w : InstrWord} {i : Instr} (hop : opcodeOf w = 0b0010011#7) (h : decodeOpImm w = .ok i) :
    encode i = w := by
  unfold decodeOpImm at h
  split at h
  case h_7 => split at h <;> cases h; exact encShift6_of_fields ‹_› ‹_› hop
  case h_8 =>
    have h3 : funct3Of w = 0b101#3 := by apply funct3_eq_five <;> assumption
    split at h <;> cases h <;> exact encShift6_of_fields ‹_› h3 hop
  all_goals cases h; exact encI_of_fields ‹_› hop

theorem encode_of_decodeOpImm32 {w : InstrWord} {i : Instr} (hop : opcodeOf w = 0b0011011#7) (h : decodeOpImm32 w = .ok i) :
    encode i = w := by
  unfold decodeOpImm32 at h
  split at h
  case h_1 => cases h; exact encI_of_fields ‹_› hop
  case h_4 => cases h
  all_goals split at h <;> cases h <;> exact encR_of_fields ‹_› ‹_› hop

theorem encode_decodeOpBase {w : InstrWord} (hop : opcodeOf w = 0b0110011#7) (h7 : funct7Of w = 0b0000000#7) :
    encode (decodeOpBase w) = w := by
  unfold decodeOpBase
  split
  case h_8 => exact encR_of_fields h7 (by apply funct3_eq_seven <;> assumption) hop
  all_goals exact encR_of_fields h7 ‹_› hop

theorem encode_of_decodeOp {w : InstrWord} {i : Instr} (hop : opcodeOf w = 0b0110011#7) (h : decodeOp w = .ok i) :
    encode i = w := by
  unfold decodeOp at h
  split at h
  case h_1 => cases h; exact encode_decodeOpBase hop ‹_›
  case h_2 => split at h <;> cases h <;> exact encR_of_fields ‹_› ‹_› hop
  case h_3 => cases h

theorem encode_of_decodeOp32 {w : InstrWord} {i : Instr} (hop : opcodeOf w = 0b0111011#7) (h : decodeOp32 w = .ok i) :
    encode i = w := by
  unfold decodeOp32 at h
  split at h
  case h_3 => cases h
  all_goals split at h <;> cases h <;> exact encR_of_fields ‹_› ‹_› hop

theorem encode_of_decodeSystem {w : InstrWord} {i : Instr} (hop : opcodeOf w = 0b1110011#7) (h : decodeSystem w = .ok i) :
    encode i = w := by
  unfold decodeSystem at h
  split at h
  case h_1 =>
    unfold decodeSystemZero at h
    split_ifs at h with hw hw hw <;> cases h <;> exact hw.symm
  case h_8 => cases h
  all_goals cases h; exact encI_of_fields ‹_› hop

/-- A word is the encoding of the instruction that it decodes to, so the fields of the one are those of the other. -/
theorem encode_of_decode {w : InstrWord} {i : Instr} (h : decode w = .ok i) : encode i = w := by
  unfold decode at h
  split at h <;> rename_i hop
  case h_1 | h_2 => cases h; exact encU_of_fields hop
  case h_3 => cases h; exact encJ_of_fields hop
  case h_4 => cases h; exact encI_of_fields rfl hop
  case h_5 => cases h; exact encode_decodeFence hop
  case h_6 => exact encode_of_decodeBranch hop h
  case h_7 => exact encode_of_decodeLoad hop h
  case h_8 => exact encode_of_decodeStore hop h
  case h_9 => exact encode_of_decodeOpImm hop h
  case h_10 => exact encode_of_decodeOpImm32 hop h
  case h_11 => exact encode_of_decodeOp hop h
  case h_12 => exact encode_of_decodeOp32 hop h
  case h_13 => exact encode_of_decodeSystem hop h
  case h_14 => cases h

end Sys2Proof

namespace Sys2Proof.Machine

/-! ### What a step did, told by the word it fetched -/

/-- Two ways a step ends, from the state `s.beginStep.latchInstr w` that its work starts in: it raised a kind that the hardware raises,
or `w` is the word fetched and its instruction had its effect. Where no word was fetched, `w` is what `instr_out` held before. -/
theorem step_cases {s t : State} (h : step s = .next t) : ∃ w,
    (∃ e, e.isRaised = true ∧ t = (s.beginStep.latchInstr w).raise e) ∨
    (∃ i, s.fetch = some w ∧ encode i = w ∧ Effect i (s.beginStep.latchInstr w) (.next t)) := by
  obtain ⟨-, ⟨-, rfl⟩ | ⟨w, e, -, -, rfl⟩ | ⟨w, i, hf, hd, hx⟩⟩ := step_next h
  · exact ⟨s.instrOut, .inl ⟨_, rfl, rfl⟩⟩
  · exact ⟨w, .inl ⟨_, rfl, rfl⟩⟩
  · exact ⟨w, .inr ⟨i, hf, encode_of_decode hd, hx ▸ exec_effect i _⟩⟩

/-! ### The general registers (R20 to R23) -/

/-- No effect of an instruction changes the stored `x0`. -/
theorem Effect.gpr_zero {i : Instr} {s t : State} (h : Effect i s (.next t)) : t.gpr[0] = s.gpr[0] := by
  cases h with
  | retire | jump => exact State.gpr_zero_setX ..
  | csr => exact (State.gpr_zero_setX ..).trans (by rw [State.setCsr_gpr])
  | raise => rw [State.raise_gpr]
  | onlyPc | store | ret => rfl

/-- No step changes the stored `x0`. -/
theorem step_gpr_zero {s t : State} (h : step s = .next t) : t.gpr[0] = s.gpr[0] := by
  obtain ⟨w, ⟨e, -, rfl⟩ | ⟨i, -, -, hx⟩⟩ := step_cases h
  · rw [State.raise_gpr]
    rfl
  · exact hx.gpr_zero

/-- Settles O7: a read after a write (`State.x_setX`), the read of `x0`, and no step changing the stored `x0`. -/
theorem zeroRegisterLaw : Obligations.ZeroRegisterLaw := by
  refine ⟨fun s i r v => ?_, State.x_zero, fun s t h0 h => (step_gpr_zero h).trans h0⟩
  rw [State.x_setX]
  exact if_congr (and_congr_right fun hr => by rw [hr]) rfl rfl

/-- A register write changes the read of its own register alone, and never that of `x0`. -/
theorem State.x_setX_changed {s : State} {rd r : Reg} {v : Word} (h : (s.setX rd v).x r ≠ s.x r) : rd = r ∧ r ≠ 0#5 := by
  rw [State.x_setX] at h
  split at h
  · rename_i hr
    exact ⟨hr.1.symm, hr.2⟩
  · exact absurd rfl h

/-- A register that an effect changes is the `rd` of a word that is no branch, store or FENCE, and nothing is raised. -/
theorem Effect.x_changed {i : Instr} {s t : State} {r : Reg} (h : Effect i s (.next t)) (hne : t.x r ≠ s.x r) :
    rdOf (encode i) = r ∧ r ≠ 0#5 ∧ t.faultOut = s.faultOut ∧
      opcodeOf (encode i) ∉ [0b1100011#7, 0b0100011#7, 0b0001111#7] := by
  cases h with
  | retire rd v hrd hop =>
    obtain ⟨rfl, hr⟩ := State.x_setX_changed hne
    exact ⟨hrd.symm, hr, State.retire_faultOut .., fun hm => hop (List.mem_append_left [_] hm)⟩
  | jump rd target hrd hop =>
    obtain ⟨rfl, hr⟩ := State.x_setX_changed hne
    exact ⟨hrd.symm, hr, State.setX_faultOut .., by obtain h | h := List.mem_pair.1 hop <;> simp [h]⟩
  | csr rd a v hrd ha hop =>
    obtain ⟨rfl, hr⟩ := State.x_setX_changed (s := s.setCsr a v) (by rwa [State.x_setCsr])
    exact ⟨hrd.symm, hr, (State.retire_faultOut ..).trans (State.setCsr_faultOut ..), by rw [hop.1]; decide⟩
  | raise e => exact absurd (State.x_raise ..) hne
  | onlyPc | store | ret => exact absurd rfl hne

/-- Settles O57: a trap changes no register, and an effect only as `Effect.x_changed` says. -/
theorem registerWriters : Obligations.RegisterWriters := by
  intro s t r h hne
  obtain ⟨w, ⟨e, -, rfl⟩ | ⟨i, hf, rfl, hx⟩⟩ := step_cases h
  · exact absurd (State.x_raise ..) hne
  · obtain ⟨hrd, hr, hfault, hop⟩ := hx.x_changed hne
    simp only [List.mem_cons, List.not_mem_nil, or_false, not_or] at hop
    exact ⟨_, hf, hrd, hr, hfault, hop⟩

/-! ### `pc` (R24 to R26) -/

/-- The exact `pc + 4` of claims is the model's. -/
theorem nextPc_eq (s : State) : nextPc s = s.pc + 4#64 := by simp [nextPc, BitVec.ofNat_add]

/-- An effect that raises nothing, of an instruction that is no jump, branch or MRET, advances `pc` by 4. -/
theorem Effect.pc_eq {i : Instr} {s t : State} (h : Effect i s (.next t)) (hfault : t.faultOut = none)
    (hop : opcodeOf (encode i) ∉ [0b1101111#7, 0b1100111#7, 0b1100011#7]) (hmret : i ≠ .mret) : t.pc = s.pc + 4#64 := by
  cases h with
  | retire => exact State.retire_pc ..
  | csr rd a v => exact (State.retire_pc ..).trans (by rw [State.setCsr_pc])
  | store => rfl
  | onlyPc target h => exact h.resolve_left fun hb => hop (by simp [hb])
  | jump rd target h hj => exact absurd (List.mem_append_left [_] hj) hop
  | raise e => simp at hfault
  | ret h => exact absurd h hmret

/-- Settles O54: a step without a fault had its instruction's effect, which advances `pc` (`Effect.pc_eq`). -/
theorem pcAdvancesByFour : Obligations.PcAdvancesByFour := by
  intro s t w h hfault hf hjal hjalr hbranch hmret
  obtain ⟨v, ⟨e, -, rfl⟩ | ⟨i, hv, rfl, hx⟩⟩ := step_cases h
  · simp at hfault
  · obtain rfl : encode i = w := Option.some.inj (hv.symm.trans hf)
    rw [nextPc_eq]
    exact hx.pc_eq hfault (by simp [hjal, hjalr, hbranch]) (by rintro rfl; exact hmret rfl)

/-! ### The CSR bank (R29 to R44) -/

/-- A slot other than 0 takes all 64 bits (R31). -/
theorem State.csr_setCsr_same (s : State) {a : CsrAddr} (v : Word) (ha : a ≠ 0#12) : (s.setCsr a v).csr a = v := by
  unfold State.setCsr
  split
  case h_1 => exact absurd rfl ha
  case h_12 =>
    rw [State.csr_other _ (by simp_all), Sparse.get_set, if_pos rfl]
  all_goals rfl

/-- A write touches no other slot (R31). -/
theorem State.csr_setCsr_other (s : State) {a b : CsrAddr} (v : Word) (hb : b ≠ a) : (s.setCsr a v).csr b = s.csr b := by
  unfold State.setCsr
  split
  case h_1 => rfl
  case h_12 =>
    have hne : b.toNat ≠ a.toNat := fun e => hb (BitVec.eq_of_toNat_eq e)
    unfold State.csr
    split <;> simp only [Sparse.get_set, if_neg hne]
  all_goals
    unfold State.csr
    split <;> simp_all

/-- A read of a CSR after a write (R31). -/
theorem State.csr_setCsr (s : State) (a b : CsrAddr) (v : Word) :
    (s.setCsr a v).csr b = if b = a ∧ a ≠ 0#12 then v else s.csr b := by
  split
  · rename_i h
    obtain ⟨rfl, h0⟩ := h
    exact s.csr_setCsr_same v h0
  · rename_i h
    by_cases h0 : a = 0#12
    · rw [h0]
      rfl
    · exact s.csr_setCsr_other v fun hb => h ⟨hb, h0⟩

/-- The four CSRs that trap entry writes (R270). -/
def trapCsrs : List CsrAddr := [0x300#12, 0x341#12, 0x342#12, 0x343#12]

theorem State.csr_enterTrap_other (s : State) (e : Exception) {a : CsrAddr} (ha : a ∉ trapCsrs) :
    (s.enterTrap e).csr a = s.csr a := by
  unfold State.csr
  split <;> simp_all [trapCsrs]

theorem State.csr_raise_other (s : State) (e : Exception) {a : CsrAddr} (ha : a ∉ trapCsrs) : (s.raise e).csr a = s.csr a := by
  obtain h | ⟨-, -, h⟩ := s.raise_cases e <;> rw [h]
  · rw [State.csr_enterTrap_other _ _ ha, State.csr_report]
  · rw [State.csr_report]

theorem State.csr_returnFromTrap_other (s : State) {a : CsrAddr} (ha : a ≠ 0x300#12) : s.returnFromTrap.csr a = s.csr a := by
  unfold State.csr
  split <;> simp_all

/-- A CSR that a raised exception changes is one of the four of trap entry. -/
theorem State.csr_raise_changed {s : State} {e : Exception} {a : CsrAddr} (h : (s.raise e).csr a ≠ s.csr a) :
    (s.raise e).faultOut ≠ none ∧ a ∈ trapCsrs :=
  ⟨by simp, by_contra fun ha => h (State.csr_raise_other _ _ ha)⟩

/-- What changes a CSR: a CSR instruction that names it, other than slot 0; a trap its four CSRs; MRET `mstatus`. -/
theorem Effect.csr_changed {i : Instr} {s t : State} {a : CsrAddr} (h : Effect i s (.next t)) (hne : t.csr a ≠ s.csr a) :
    (IsCsrWord (encode i) ∧ immIOf (encode i) = a ∧ a ≠ 0#12 ∧ t.faultOut = s.faultOut) ∨ (t.faultOut ≠ none ∧ a ∈ trapCsrs) ∨
      (i = .mret ∧ a = 0x300#12) := by
  cases h with
  | csr rd b v hrd hb hop =>
    have hset : (s.setCsr b v).csr a ≠ s.csr a := fun he => hne ((State.csr_retire ..).trans he)
    rw [State.csr_setCsr] at hset
    split at hset
    · rename_i hab
      obtain ⟨rfl, h0⟩ := hab
      exact .inl ⟨hop, hb.symm, h0, (State.retire_faultOut ..).trans (State.setCsr_faultOut ..)⟩
    · exact absurd rfl hset
  | raise e => exact .inr (.inl (State.csr_raise_changed hne))
  | ret hi => exact .inr (.inr ⟨hi, by_contra fun ha => hne (State.csr_returnFromTrap_other _ ha)⟩)
  | retire => exact absurd (State.csr_retire ..) hne
  | jump => exact absurd (State.csr_setX ..) hne
  | onlyPc | store => exact absurd rfl hne

/-- What changes a CSR in a step: the three cases of `Effect.csr_changed`, told by the fetched word. -/
theorem step_csr_changed {s t : State} {a : CsrAddr} (h : step s = .next t) (hne : t.csr a ≠ s.csr a) :
    (∃ w, s.fetch = some w ∧ IsCsrWord w ∧ immIOf w = a ∧ a ≠ 0#12 ∧ t.faultOut = none) ∨ (t.faultOut ≠ none ∧ a ∈ trapCsrs) ∨
      (s.fetch = some 0x30200073#32 ∧ a = 0x300#12) := by
  obtain ⟨w, ⟨e, -, rfl⟩ | ⟨i, hf, rfl, hx⟩⟩ := step_cases h
  · exact .inr (.inl (State.csr_raise_changed hne))
  · obtain hcsr | htrap | ⟨rfl, ha⟩ := hx.csr_changed hne
    · exact .inl ⟨_, hf, hcsr⟩
    · exact .inr (.inl htrap)
    · exact .inr (.inr ⟨hf, ha⟩)

/-- Settles O55: `step_csr_changed`. -/
theorem csrWriters : Obligations.CsrWriters := by
  intro s t a h hne
  obtain ⟨w, hf, hw, ha, -, hfault⟩ | hrest := step_csr_changed h hne
  · exact .inl ⟨w, hf, hw, ha, hfault⟩
  · exact .inr hrest

/-- Settles O8: a read after a write (`State.csr_setCsr`); of the CSRs that a step changes (`step_csr_changed`) none is slot 0. -/
theorem csrWriteLaw : Obligations.CsrWriteLaw := by
  refine ⟨State.csr_setCsr, fun s t h => by_contra fun hne => ?_⟩
  obtain ⟨w, -, -, -, h0, -⟩ | ⟨-, hmem⟩ | ⟨-, h0⟩ := step_csr_changed h hne
  · exact h0 rfl
  · exact absurd hmem (by decide)
  · exact absurd h0 (by decide)

/-! ### The invariant -/

/-- Where no field that the invariant speaks of changes, it is kept. -/
theorem State.Inv.of_eq {s t : State} (h : s.Inv) (h0 : t.gpr[0] = s.gpr[0]) (hp : t.params = s.params) (hm : t.mem = s.mem)
    (hc : t.csrs = s.csrs) (hf : t.faultOut = s.faultOut) (hd : t.debugTrap = s.debugTrap) : t.Inv where
  zeroReg := h0.trans h.zeroReg
  memWf := hm ▸ h.memWf
  memBacked := hm ▸ hp ▸ h.memBacked
  csrsWf := hc ▸ h.csrsWf
  csrsPlain := hc ▸ h.csrsPlain
  debugFits := hf ▸ hd ▸ h.debugFits
  faultRaised := hf ▸ h.faultRaised

theorem State.Inv.setPc {s : State} (h : s.Inv) (target : Word) : (s.setPc target).Inv := h.of_eq rfl rfl rfl rfl rfl rfl

theorem State.Inv.returnFromTrap {s : State} (h : s.Inv) : s.returnFromTrap.Inv := h.of_eq rfl rfl rfl rfl rfl rfl

theorem State.Inv.setX {s : State} (h : s.Inv) (rd : Reg) (v : Word) : (s.setX rd v).Inv :=
  h.of_eq (s.gpr_zero_setX rd v) (by simp) (by simp) (by simp) (by simp) (by simp)

/-- The state that a step's work starts in: only the outputs differ, and they report nothing. -/
theorem State.Inv.started {s : State} (h : s.Inv) (w : InstrWord) : (s.beginStep.latchInstr w).Inv :=
  { h with debugFits := rfl, faultRaised := nofun }

/-- Raising a kind that the hardware raises sets the outputs to fit it. -/
theorem State.Inv.raise {s : State} (h : s.Inv) {e : Exception} (he : e.isRaised = true) : (s.raise e).Inv where
  zeroReg := by simpa using h.zeroReg
  memWf := by simpa using h.memWf
  memBacked := by simpa using h.memBacked
  csrsWf := by simpa using h.csrsWf
  csrsPlain := by simpa using h.csrsPlain
  debugFits := by simp
  faultRaised := by simp [he]

/-- A CSR write leaves the sparse bank, or writes it at an address that is held there. -/
theorem State.setCsr_csrs_cases (s : State) (a : CsrAddr) (v : Word) :
    (s.setCsr a v).csrs = s.csrs ∨ (plainCsr a.toNat = true ∧ (s.setCsr a v).csrs = Sparse.set s.csrs a.toNat v) := by
  unfold State.setCsr
  split
  case h_12 =>
    refine .inr ⟨?_, rfl⟩
    have hlt := a.isLt
    simp_all [plainCsr, ← BitVec.toNat_inj]
  all_goals exact .inl rfl

theorem State.Inv.setCsr {s : State} (h : s.Inv) (a : CsrAddr) (v : Word) : (s.setCsr a v).Inv := by
  obtain hc | ⟨hplain, hc⟩ := s.setCsr_csrs_cases a v
  · exact h.of_eq (by simp) (by simp) (by simp) hc (by simp) (by simp)
  · refine ⟨by simpa using h.zeroReg, by simpa using h.memWf, by simpa using h.memBacked, ?_, ?_, by simpa using h.debugFits,
      by simpa using h.faultRaised⟩
    · rw [hc]
      exact Sparse.canonical_set _ _ h.csrsWf
    · intro c hmem
      rw [hc] at hmem
      obtain ⟨rfl, -⟩ | ⟨hold, -⟩ := Sparse.mem_set hmem
      · exact hplain
      · exact h.csrsPlain c hold

/-- In a legal map every byte of a backed access is backed. -/
theorem backed_byte {rs : List Region} (hl : legalRegions rs = true) {pa n a : Nat} (hb : backed rs pa n = true) (h1 : pa ≤ a)
    (h2 : a < pa + n) : backed rs a 1 = true := by
  obtain ⟨r, hr, hbase, hend⟩ := backed_region hb
  exact backed_of_region hl hr le_rfl (by omega) (by omega)

/-- In a legal map a physical write keeps the invariant: every byte stored lies in the region that backs the access. -/
theorem State.Inv.physWrite {s t : State} (h : s.Inv) (hl : legalRegions s.params.regions = true) {pa : Word} {w : Width} {v : Word}
    (hw : s.physWrite pa w v = some t) : t.Inv := by
  have hwf := State.wf_physWrite hl h.memWf hw
  obtain ⟨hb, rfl⟩ := State.physWrite_some hw
  refine { h with memWf := hwf, memBacked := fun c hc => ?_ }
  obtain ⟨h1, h2⟩ | hold := Memory.mem_writeLE _ _ _ _ _ hc
  · exact backed_byte hl hb h1 h2
  · exact h.memBacked c hold

/-- In a legal map no effect of an instruction breaks the invariant. -/
theorem Effect.keeps_inv {i : Instr} {s t : State} (h : Effect i s (.next t)) (hl : legalRegions s.params.regions = true)
    (hs : s.Inv) : t.Inv := by
  cases h with
  | retire | jump => exact (hs.setX ..).setPc _
  | onlyPc => exact hs.setPc _
  | store pa w v r x hb => exact (hs.physWrite hl (if_pos hb)).setPc _
  | csr => exact ((hs.setCsr ..).setX ..).setPc _
  | raise e he => exact hs.raise he.isRaised
  | ret => exact hs.returnFromTrap

/-- Settles O48: the invariant holds in the state that the step's work starts in (`State.Inv.started`), and raising an exception and
every effect of an instruction keep it. -/
theorem invariantKept : Obligations.InvariantKept := by
  intro s t hs h
  obtain ⟨w, ⟨e, he, rfl⟩ | ⟨i, -, -, hx⟩⟩ := step_cases h
  · exact (hs.started w).raise he
  · exact hx.keeps_inv (step_next h).1 (hs.started w)

/-! ### Reset (R48, R300) -/

/-- Every register reads 0 after reset. -/
theorem State.x_resetWith (p : Params) (m : List Host.Cell) (r : Reg) : (State.resetWith p m).x r = 0#64 := by
  simp [State.x, State.resetWith]

/-- Every CSR reads 0 after reset but `misa` and `mhartid`. -/
theorem State.csr_resetWith (p : Params) (m : List Host.Cell) (a : CsrAddr) :
    (State.resetWith p m).csr a = if a = 0x301#12 then p.misaReset else if a = 0xF14#12 then p.hartId else 0#64 := by
  unfold State.csr
  split <;> simp_all [State.resetWith]

/-- Settles O9: both resets are `State.resetWith`, of the state's own parameters and memory or of the defaults. -/
theorem resetLeavesSpecState : Obligations.ResetLeavesSpecState := by
  refine ⟨?_, fun s => ⟨fun _ => rfl, rfl⟩, rfl, rfl, rfl⟩
  rintro t (⟨s, rfl⟩ | rfl)
  · exact ⟨rfl, State.x_resetWith _ _, rfl, State.csr_resetWith _ _⟩
  · exact ⟨rfl, State.x_resetWith _ _, rfl, State.csr_resetWith _ _⟩

/-- Reset gives the invariant where memory meets its two clauses. -/
theorem State.inv_resetWith {p : Params} {m : List Host.Cell} (hwf : Memory.wf m)
    (hb : ∀ c ∈ m, backed p.regions c.1 1 = true) : (State.resetWith p m).Inv where
  zeroReg := by simp [State.resetWith]
  memWf := hwf
  memBacked := hb
  csrsWf := ⟨List.Pairwise.nil, nofun⟩
  csrsPlain := nofun
  debugFits := rfl
  faultRaised := nofun

/-- Settles O49: reset keeps memory, and at reset with the defaults there is none listed. -/
theorem invariantAtReset : Obligations.InvariantAtReset :=
  ⟨State.inv_resetWith State.wf_reset nofun, fun _ hs => State.inv_resetWith hs.memWf hs.memBacked⟩

end Sys2Proof.Machine
end

section
/-! PROOF. The statements of 20_memory: lookup (R61, R62), the fabric port (R63 to R69), the fetch (R70), translation (R80 to R88), and
the accesses of loads and stores (R89 to R97), with what a raised exception is in the sense of claims (60_exceptions R270 to R272). -/

namespace Sys2Proof.Machine

/-! ### Lookup (R61, R62) -/

/-- In a legal map a region is known by its base. -/
theorem legalRegions_base_inj {rs : List Region} (h : legalRegions rs = true) {r q : Region} (hr : r ∈ rs) (hq : q ∈ rs)
    (hb : r.base = q.base) : r = q := by
  have hr1 := (legalRegions_mem h hr).1
  have hq1 := (legalRegions_mem h hq).1
  exact legalRegions_unique h hr hq (a := r.base) le_rfl (by omega) (by omega) (by omega)

/-- In a legal map the region selected is the one with the greatest base not above the address. -/
theorem selectRegion_eq_some {rs : List Region} (h : legalRegions rs = true) {pa : Nat} {r : Region} (hr : r ∈ rs)
    (hpa : r.base ≤ pa) (hmax : ∀ q ∈ rs, q.base ≤ pa → q.base ≤ r.base) : selectRegion rs pa = some r := by
  cases hs : selectRegion rs pa with
  | none =>
    have := selectRegion_none hs r hr
    omega
  | some q =>
    obtain ⟨hq, hqpa, hqmax⟩ := selectRegion_some hs
    rw [legalRegions_base_inj h hq hr (le_antisymm (hmax q hq hqpa) (hqmax r hr hpa))]

/-- Settles O10: a hit says this (`lookup_some`), and a region that meets it is the one selected, which passes the fit test. -/
theorem lookupRule : Obligations.LookupRule := by
  intro rs pa n r hl
  refine ⟨lookup_some, fun ⟨hr, hpa, hmax, hfit⟩ => ?_⟩
  unfold lookup
  rw [selectRegion_eq_some ((legalRegions_iff rs).2 hl) hr hpa hmax]
  exact if_pos hfit

/-- No access that passes 2^64 lies in a region of a legal map (R66). -/
theorem not_inOneRegion_of_wraps {rs : List Region} (h : LegalMap rs) {pa n : Nat} (hw : 2 ^ 64 < pa + n) :
    ¬InOneRegion rs pa n := by
  rintro ⟨r, hr, -, hend⟩
  have := (h.1 r hr).2
  omega

/-! ### The fabric port: hits and misses (R63 to R66) -/

theorem lookup_eq_none_iff {rs : List Region} {pa n : Nat} : lookup rs pa n = none ↔ backed rs pa n = false := by
  simp [backed]

theorem backed_of_lookup {rs : List Region} {pa n : Nat} {r : Region} (h : lookup rs pa n = some r) : backed rs pa n = true := by
  simp [backed, h]

theorem State.physRead_of_backed {s : State} {pa : Word} {w : Width} (h : backed s.params.regions pa.toNat w.bytes = true) :
    s.physRead pa w = some (Memory.readLE s.mem pa.toNat w.bytes) := if_pos h

theorem State.physRead_eq_none_iff {s : State} {pa : Word} {w : Width} :
    s.physRead pa w = none ↔ backed s.params.regions pa.toNat w.bytes = false := by
  simp [State.physRead]

theorem State.physWrite_of_backed {s : State} {pa : Word} {w : Width} (h : backed s.params.regions pa.toNat w.bytes = true) (v : Word) :
    s.physWrite pa w v = some { s with mem := Memory.writeLE s.mem pa.toNat w.bytes v } := if_pos h

theorem State.physWrite_eq_none_iff {s : State} {pa : Word} {w : Width} {v : Word} :
    s.physWrite pa w v = none ↔ backed s.params.regions pa.toNat w.bytes = false := by
  simp [State.physWrite]

/-- Settles O13: a read and a write succeed where the access is backed, which in a legal map is where one region holds all of it. -/
theorem accessNeedsOneRegion : Obligations.AccessNeedsOneRegion := by
  intro s pa w v hl
  have hb := backed_iff hl (pa := pa.toNat) w.one_le_bytes
  rw [Ne, Ne, State.physRead_eq_none_iff, State.physWrite_eq_none_iff, Bool.not_eq_false, hb]
  refine ⟨Iff.rfl, Iff.rfl, fun hw => ?_⟩
  have hmiss : backed s.params.regions pa.toNat w.bytes = false :=
    Bool.eq_false_iff.2 fun h => not_inOneRegion_of_wraps hl hw (hb.1 h)
  exact ⟨hmiss, hmiss⟩

/-! ### The value of the bytes (R63) -/

theorem Width.bytes_le_eight (w : Width) : w.bytes ≤ 8 := by cases w <;> decide

/-- `n` bytes make a number below `2 ^ (8 * n)`. -/
theorem Memory.readLE_lt (m : List Host.Cell) (n : Nat) : ∀ a, (Memory.readLE m a n).toNat < 2 ^ (8 * n) := by
  induction n with
  | zero => intro a; exact Nat.one_pos
  | succ n ih =>
    intro a
    have hpow : 2 ^ (8 * (n + 1)) = 2 ^ (8 * n) * 2 ^ 8 := by rw [← Nat.pow_add]; rfl
    have hlow : (Memory.get m a).toNat < 2 ^ (8 * (n + 1)) :=
      (Memory.get m a).isLt.trans_le (Nat.pow_le_pow_right (by decide) (by omega))
    simp only [Memory.readLE, BitVec.toNat_or, BitVec.toNat_setWidth, BitVec.toNat_shiftLeft, Nat.shiftLeft_eq]
    refine Nat.or_lt_two_pow ((Nat.mod_le _ _).trans_lt hlow) ((Nat.mod_le _ _).trans_lt ?_)
    rw [hpow]
    exact Nat.mul_lt_mul_of_pos_right (ih (a + 1)) (by decide)

/-- The first byte is the lowest, as long as nothing is shifted out of the word. -/
theorem Memory.toNat_readLE_succ (m : List Host.Cell) (a : Nat) {n : Nat} (hn : n < 8) :
    (Memory.readLE m a (n + 1)).toNat = (Memory.readLE m (a + 1) n).toNat * 2 ^ 8 + (Memory.get m a).toNat := by
  have hhigh : (Memory.readLE m (a + 1) n).toNat < 2 ^ 56 :=
    (Memory.readLE_lt m n (a + 1)).trans_le (Nat.pow_le_pow_right (by decide) (by omega))
  have hlow := (Memory.get m a).isLt
  simp only [Memory.readLE, BitVec.toNat_or, BitVec.toNat_setWidth, BitVec.toNat_shiftLeft]
  rw [Nat.mod_eq_of_lt (by omega), Nat.mod_eq_of_lt (by rw [Nat.shiftLeft_eq]; omega), Nat.or_comm,
    ← Nat.shiftLeft_add_eq_or_of_lt hlow, Nat.shiftLeft_eq]

/-- The bytes read are the digits of the value in base 256. -/
theorem Memory.toNat_readLE (s : State) {n : Nat} : ∀ {a : Nat}, n ≤ 8 → (Memory.readLE s.mem a n).toNat = bytesValue s a n := by
  induction n with
  | zero => intros; rfl
  | succ n ih =>
    intro a hn
    rw [Memory.toNat_readLE_succ _ _ (by omega), ih (by omega)]
    unfold bytesValue
    rw [Finset.sum_range_succ', Finset.sum_mul]
    congr 1
    · refine Finset.sum_congr rfl fun k _ => ?_
      rw [Nat.mul_assoc, ← Nat.pow_add, Nat.add_assoc, Nat.add_comm 1 k]
      rfl
    · simp [State.byte]

/-- Settles O11: a hit answers the bytes read, whose number is `bytesValue` (`Memory.toNat_readLE`). -/
theorem physReadLittleEndian : Obligations.PhysReadLittleEndian := by
  intro s pa w
  refine ⟨fun h => State.physRead_eq_none_iff.2 (lookup_eq_none_iff.1 h), fun r h => ?_⟩
  exact ⟨_, State.physRead_of_backed (backed_of_lookup h), Memory.toNat_readLE s w.bytes_le_eight⟩

/-! ### The bytes stored (R64) -/

/-- The laws of a wide write (`Memory.get_writeLE_inside` and `_outside`) as claims speak of them. -/
theorem storesBytes_writeLE (s : State) (a n : Nat) (v : Word) : StoresBytes s { s with mem := Memory.writeLE s.mem a n v } a n v := by
  refine ⟨fun k hk => ?_, fun b hb => Memory.get_writeLE_outside n s.mem a b v hb⟩
  rw [State.byte, Memory.get_writeLE_inside n s.mem a k v hk, BitVec.extractLsb'_toNat, Nat.shiftRight_eq_div_pow]

/-- Settles O12: a hit stores the bytes (`storesBytes_writeLE`) and touches no field but memory. -/
theorem physWriteStoresBytes : Obligations.PhysWriteStoresBytes := by
  intro s pa w v
  refine ⟨fun h => State.physWrite_eq_none_iff.2 (lookup_eq_none_iff.1 h), fun r h => ?_⟩
  exact ⟨_, State.physWrite_of_backed (backed_of_lookup h) v, storesBytes_writeLE .., rfl, fun _ => rfl, fun _ => rfl, rfl, rfl, rfl, rfl, rfl⟩

/-! ### Reads of what was written (R69) -/

/-- A wide read of bytes that are those of `v` from byte `o` upward is the slice of `v` that they make. -/
theorem Memory.readLE_eq_slice {m : List Host.Cell} {v : Word} (n : Nat) :
    ∀ {a o : Nat}, (∀ k < n, Memory.get m (a + k) = v.extractLsb' (8 * (o + k)) 8) →
      Memory.readLE m a n = (v.extractLsb' (8 * o) (8 * n)).setWidth 64 := by
  induction n with
  | zero => intro a o _; exact BitVec.eq_of_getLsbD_eq fun i hi => by simp [Memory.readLE]
  | succ n ih =>
    intro a o h
    have hfirst : Memory.get m a = v.extractLsb' (8 * o) 8 := h 0 n.succ_pos
    have hrest := ih (a := a + 1) (o := o + 1) fun k hk => by
      simpa only [Nat.add_assoc, Nat.add_comm 1 k] using h (k + 1) (Nat.succ_lt_succ hk)
    rw [Memory.readLE, hfirst, hrest]
    ext i hi
    by_cases h8 : i < 8
    · simp [h8, show i < 8 * (n + 1) by omega]
    · simp [h8, show 8 * (o + 1) + (i - 8) = 8 * o + i by omega, show (i - 8 < 8 * n) = (i < 8 * (n + 1)) by simp; omega]

/-- A backed read inside the bytes of a write gives their slice of the value written. -/
theorem State.physRead_of_physWrite {s t : State} {pa pa' v : Word} {w w' : Width} (h : s.physWrite pa w v = some t) {o : Nat}
    (hpa : pa'.toNat = pa.toNat + o) (ho : o + w'.bytes ≤ w.bytes) (hb : backed s.params.regions pa'.toNat w'.bytes = true) :
    t.physRead pa' w' = some ((v.extractLsb' (8 * o) (8 * w'.bytes)).setWidth 64) := by
  obtain ⟨-, ht⟩ := State.physWrite_some h
  rw [State.physRead_of_backed (by rwa [State.params_physWrite h]), ht]
  refine congrArg some (Memory.readLE_eq_slice _ fun k hk => ?_)
  rw [hpa, Nat.add_assoc]
  exact Memory.get_writeLE_inside _ _ _ _ _ (by omega)

/-- The same in a legal map, where an access inside a backed one is backed and does not pass 2^64. -/
theorem State.physRead_of_physWrite_legal {s t : State} {pa v : Word} {w w' : Width} (hl : LegalMap s.params.regions)
    (h : s.physWrite pa w v = some t) {o : Nat} (ho : o + w'.bytes ≤ w.bytes) :
    t.physRead (pa + BitVec.ofNat 64 o) w' = some ((v.extractLsb' (8 * o) (8 * w'.bytes)).setWidth 64) := by
  obtain ⟨r, hr, hbase, hend⟩ := backed_region (State.physWrite_some h).1
  have htop := (hl.1 r hr).2
  have hone := w'.one_le_bytes
  have hpa : (pa + BitVec.ofNat 64 o).toNat = pa.toNat + o := by
    rw [BitVec.toNat_add, BitVec.toNat_ofNat, Nat.add_mod_mod, Nat.mod_eq_of_lt (by omega)]
  exact State.physRead_of_physWrite h hpa ho ((backed_iff hl hone).2 ⟨r, hr, by omega, by omega⟩)

/-- The fetch is the 4-byte read at `pc`, cut to an instruction word. -/
theorem State.fetch_eq_map (s : State) : s.fetch = (s.physRead s.pc .word).map (BitVec.setWidth 32) := by
  unfold State.fetch
  cases s.physRead s.pc .word <;> rfl

/-- A fetch at the address just written gives the low 32 bits of the value. -/
theorem State.fetch_of_physWrite {s t : State} {pa v : Word} {w : Width} (h : s.physWrite pa w v = some t) (hw : 4 ≤ w.bytes)
    (hb : backed s.params.regions pa.toNat 4 = true) : ({ t with pc := pa } : State).fetch = some (v.setWidth 32) := by
  have hread : ({ t with pc := pa } : State).physRead pa .word = some ((v.extractLsb' 0 32).setWidth 64) :=
    State.physRead_of_physWrite (w' := .word) h (o := 0) rfl (by simpa [Width.bytes] using hw) hb
  rw [State.fetch_eq_map, hread]
  simp [BitVec.setWidth_eq_extractLsb' (x := v) (w := 32) (by decide)]

/-- Settles O14: each narrow read is `State.physRead_of_physWrite_legal` at its offset, and the fetch is `State.fetch_of_physWrite`. -/
theorem narrowReadsSeeWideWrite : Obligations.NarrowReadsSeeWideWrite := by
  intro s t pa v hl h
  refine ⟨fun k hk => ?_, ?_, ?_⟩
  · exact State.physRead_of_physWrite_legal (w' := .byte) hl h (o := k) hk
  · exact State.physRead_of_physWrite_legal (w' := .word) hl h (o := 4) le_rfl
  · obtain ⟨r, hr, hbase, (hend : pa.toNat + 8 ≤ r.base + r.length)⟩ := backed_region (State.physWrite_some h).1
    rw [← BitVec.setWidth_eq_extractLsb' (by decide)]
    exact State.fetch_of_physWrite h (by decide) ((backed_iff hl (by decide)).2 ⟨r, hr, hbase, by omega⟩)

/-! ### A word placed for the next fetch (R70, R110) -/

/-- A word put together from its four bytes (R110). -/
theorem word_of_bytes (w : InstrWord) :
    w.extractLsb' 24 8 ++ w.extractLsb' 16 8 ++ w.extractLsb' 8 8 ++ w.extractLsb' 0 8 = w := by
  simp only [extractLsb'_adjacent w 16 8, extractLsb'_adjacent w 8 8, extractLsb'_adjacent w 0 8, extractLsb'_whole]

/-- The host's decoder reads the word that the bits make. -/
theorem decodeTableWord_eq_some_iff {nbits w : Nat} {i : Instr} :
    decodeTableWord nbits w = some i ↔ decode (BitVec.ofNat 32 (w % 2 ^ nbits)) = .ok i := by
  simp only [decodeTableWord, wordBytes, decodeBytes, word_of_bytes]
  cases decode (BitVec.ofNat 32 (w % 2 ^ nbits)) <;> simp

theorem State.placeWord_of_backed {s : State} (h : backed s.params.regions s.pc.toNat 4 = true) (w : InstrWord) :
    s.physWrite s.pc .word (w.setWidth 64) = some (s.placeWord w) := by
  rw [State.placeWord, State.physWrite_of_backed h]

/-- Settles O16: the word placed is written at `pc` (`State.placeWord_of_backed`), where the fetch sees it (`State.fetch_of_physWrite`). -/
theorem placedWordIsFetched : Obligations.PlacedWordIsFetched := by
  intro s nbits w hl hr
  refine ⟨?_, fun i => decodeTableWord_eq_some_iff⟩
  have hb : backed s.params.regions s.pc.toNat 4 = true := (backed_iff hl (by decide)).2 hr
  have hput := State.placeWord_of_backed hb (BitVec.ofNat 32 (w % 2 ^ nbits))
  have hpc : (s.withFetchWord nbits w).pc = s.pc := by
    rw [State.withFetchWord, (State.physWrite_some hput).2]
  have hfetch := State.fetch_of_physWrite hput le_rfl hb
  rw [← hpc] at hfetch
  simpa [State.withFetchWord] using hfetch

/-! ### Which mode `satp` names (R81) -/

theorem transModeOf_eq_some_iff {b : BitVec 4} {m : TransMode} : transModeOf b = some m ↔ b.toNat = modeField m := by
  revert b
  cases m <;> decide

/-- The mode of claims is the mode that `translate` looks up. -/
theorem inMode_iff {s : State} {m : TransMode} :
    InMode s m ↔ transModeOf (satpMode s.satp) = some m ∧ s.params.satpModes.contains m = true := by
  have hfield : (satpMode s.satp).toNat = (s.csr 0x180#12).toNat / 2 ^ 60 := by
    have := s.satp.isLt
    rw [satpMode, BitVec.extractLsb'_toNat, Nat.shiftRight_eq_div_pow, Nat.mod_eq_of_lt (by omega)]
    rfl
  rw [InMode, transModeOf_eq_some_iff, hfield, List.contains_iff_mem]

theorem State.translate_of_inMode {s : State} {m : TransMode} (h : InMode s m) (va : Word) : s.translate va = s.translateIn va m := by
  obtain ⟨hmode, hmem⟩ := inMode_iff.1 h
  simp only [State.translate, hmode, hmem, if_true]

/-- Settles O17: the mode named is the one `translate` takes (`State.translate_of_inMode`), and in Bare it answers its argument. -/
theorem bareIsIdentity : Obligations.BareIsIdentity := fun _ va h => State.translate_of_inMode h va

theorem State.walk_ne_unsupported (s : State) (va : Word) (n : Nat) : ∀ a, s.walk va n a ≠ .unsupported := by
  induction n with
  | zero => intro a; exact nofun
  | succ n ih =>
    intro a
    rw [State.walk]
    split
    · exact nofun
    · split_ifs
      · exact nofun
      · exact nofun
      · exact ih _

theorem State.translateIn_ne_unsupported (s : State) (va : Word) (m : TransMode) : s.translateIn va m ≠ .unsupported := by
  cases m with
  | bare => exact nofun
  | sv39 | sv48 | sv57 => exact s.walk_ne_unsupported va _ _

/-- `Unsupported` is answered exactly where no implemented mode is named (R88). -/
theorem State.translate_unsupported_iff {s : State} {va : Word} : s.translate va = .unsupported ↔ ¬∃ m, InMode s m := by
  constructor
  · rintro h ⟨m, hm⟩
    exact State.translateIn_ne_unsupported s va m ((State.translate_of_inMode hm va).symm.trans h)
  · intro h
    unfold State.translate
    cases hmode : transModeOf (satpMode s.satp) with
    | none => rfl
    | some m => exact if_neg fun hmem => h ⟨m, inMode_iff.2 ⟨hmode, hmem⟩⟩

/-! ### The walk (R83 to R87) -/

/-- A table's physical address from its page number. -/
theorem pageAddress (p : BitVec 44) : p.setWidth 64 <<< 12 = BitVec.ofNat 64 (p.toNat * 4096) := by
  apply BitVec.eq_of_toNat_eq
  simp [Nat.shiftLeft_eq]

theorem toNat_ppnField (pte : Word) : (pte.extractLsb' 10 44).toNat = ppnOf pte := by
  rw [BitVec.extractLsb'_toNat, Nat.shiftRight_eq_div_pow]
  rfl

/-- The address of an entry, from its table's page number (R85). -/
theorem pteAddress_eq (ppn : Nat) (va : Word) (i : Nat) : pteAddress (BitVec.ofNat 64 (ppn * 4096)) va i = entryAddress ppn va i := by
  have hvpn : (vpn va i).setWidth 64 * 8#64 = BitVec.ofNat 64 (va.toNat / 2 ^ (12 + 9 * i) % 512 * 8) := by
    apply BitVec.eq_of_toNat_eq
    simp [vpn, Nat.shiftRight_eq_div_pow]
  rw [pteAddress, entryAddress, hvpn, BitVec.ofNat_add]

theorem pteTable_eq (pte : Word) : pteTable pte = BitVec.ofNat 64 (ppnOf pte * 4096) := by
  rw [pteTable, pageAddress, toNat_ppnField]

theorem rootTable_eq (s : State) : rootTable s.satp = BitVec.ofNat 64 ((s.csr 0x180#12).toNat % 2 ^ 44 * 4096) := by
  rw [rootTable, pageAddress, BitVec.extractLsb'_toNat]
  rfl

theorem leafAddress_eq (leaf va : Word) : leafAddress leaf va = BitVec.ofNat 64 (ppnOf leaf * 2 ^ 12 + va.toNat % 2 ^ 12) := by
  apply BitVec.eq_of_toNat_eq
  have hppn : ppnOf leaf < 2 ^ 44 := Nat.mod_lt _ (by decide)
  have hoff : (va.extractLsb' 0 12).toNat = va.toNat % 2 ^ 12 := BitVec.extractLsb'_toNat ..
  rw [leafAddress, BitVec.toNat_append, BitVec.toNat_append, toNat_ppnField, hoff,
    ← Nat.shiftLeft_add_eq_or_of_lt (Nat.mod_lt _ (by decide))]
  simp [Nat.shiftLeft_eq]
  omega

theorem pteValid_iff {pte : Word} : pteValid pte = true ↔ PteValid pte := Iff.rfl

theorem pteLeaf_iff {pte : Word} : pteLeaf pte = true ↔ PteLeaf pte := by
  simp [pteLeaf, PteLeaf, or_assoc]

/-- What a walk that ends in a leaf answers (R85, R87). -/
def leafAnswer (leaf va : Word) : Translation :=
  .ok (leafAddress leaf va) (leaf.getLsbD 1) (leaf.getLsbD 2) (leaf.getLsbD 3)

/-- A level of the walk whose entry lies in no region (R86). -/
theorem State.walk_of_noEntry {s : State} {va : Word} {n ppn : Nat} (h : s.physRead (entryAddress ppn va n) .double = none) :
    s.walk va (n + 1) (BitVec.ofNat 64 (ppn * 4096)) = .fail := by
  rw [State.walk, pteAddress_eq, h]

/-- A level of the walk whose entry was read (R85). -/
theorem State.walk_of_entry {s : State} {va pte : Word} {n ppn : Nat} (h : s.physRead (entryAddress ppn va n) .double = some pte) :
    s.walk va (n + 1) (BitVec.ofNat 64 (ppn * 4096)) =
      if !pteValid pte then .fail
      else if pteLeaf pte then leafAnswer pte va
      else s.walk va n (BitVec.ofNat 64 (ppnOf pte * 4096)) := by
  rw [State.walk, pteAddress_eq, h, ← pteTable_eq]
  rfl

/-- The model's walk goes where the relation goes. -/
theorem WalksTo.walk_eq {s : State} {va leaf : Word} {n ppn : Nat} (h : WalksTo s va n ppn leaf) :
    s.walk va n (BitVec.ofNat 64 (ppn * 4096)) = leafAnswer leaf va := by
  induction h with
  | leaf hread hvalid hleaf =>
    simp [State.walk_of_entry hread, pteValid_iff.2 hvalid, pteLeaf_iff.2 hleaf]
  | pointer hread hvalid hleaf _ ih =>
    simp [State.walk_of_entry hread, pteValid_iff.2 hvalid, mt pteLeaf_iff.1 hleaf, ih]

/-- The model's walk fails, or the relation has a leaf. -/
theorem State.walk_fails_or_walksTo (s : State) (va : Word) (n : Nat) :
    ∀ ppn, s.walk va n (BitVec.ofNat 64 (ppn * 4096)) = .fail ∨ ∃ leaf, WalksTo s va n ppn leaf := by
  induction n with
  | zero => intro ppn; exact .inl rfl
  | succ n ih =>
    intro ppn
    cases hread : s.physRead (entryAddress ppn va n) .double with
    | none => exact .inl (State.walk_of_noEntry hread)
    | some pte =>
      rw [State.walk_of_entry hread]
      by_cases hvalid : pteValid pte = true
      · by_cases hleaf : pteLeaf pte = true
        · exact .inr ⟨pte, .leaf hread (pteValid_iff.1 hvalid) (pteLeaf_iff.1 hleaf)⟩
        · obtain hfail | ⟨leaf, hbelow⟩ := ih (ppnOf pte)
          · exact .inl (by simp [hvalid, hleaf, hfail])
          · exact .inr ⟨leaf, .pointer hread (pteValid_iff.1 hvalid) (mt pteLeaf_iff.2 hleaf) hbelow⟩
      · exact .inl (by simp [hvalid])

theorem State.translateIn_levels (s : State) (va : Word) {m : TransMode} {n : Nat} (h : levelsOf m = some n) :
    s.translateIn va m = s.walk va n (rootTable s.satp) := by
  cases m <;> cases h <;> rfl

/-- Settles O18: the walk answers the leaf that the relation ends in (`WalksTo.walk_eq`), and fails where there is none
(`State.walk_fails_or_walksTo`). -/
theorem translateMeetsWalk : Obligations.TranslateMeetsWalk := by
  intro s va m n hm hn
  rw [State.translate_of_inMode hm, State.translateIn_levels s va hn, rootTable_eq]
  have htotal := s.walk_fails_or_walksTo va n ((s.csr 0x180#12).toNat % 2 ^ 44)
  refine ⟨fun pa r w x => ⟨fun h => ?_, ?_⟩, fun h => ?_, htotal.resolve_right⟩
  · obtain hfail | ⟨leaf, hleaf⟩ := htotal
    · rw [hfail] at h
      cases h
    · rw [hleaf.walk_eq] at h
      cases h
      exact ⟨leaf, hleaf, leafAddress_eq .., rfl, rfl, rfl⟩
  · rintro ⟨leaf, hleaf, rfl, rfl, rfl, rfl⟩
    rw [hleaf.walk_eq, leafAnswer, leafAddress_eq]
  · rintro ⟨leaf, hleaf⟩
    rw [hleaf.walk_eq] at h
    cases h

/-! ### What translation reads (R80) -/

/-- A physical read depends on the parameters and on the bytes alone. -/
theorem State.physRead_congr {s t : State} (hp : t.params = s.params) (hm : SameMem s t) (pa : Word) (w : Width) :
    t.physRead pa w = s.physRead pa w := by
  rw [State.physRead, State.physRead, hp, Memory.readLE_congr w.bytes t.mem s.mem pa.toNat fun k _ => hm (pa.toNat + k)]

/-- A walk depends on its physical reads alone. -/
theorem State.walk_congr_reads {s t : State} (h : ∀ pa, t.physRead pa .double = s.physRead pa .double) (va : Word) (n : Nat) :
    ∀ a, t.walk va n a = s.walk va n a := by
  induction n with
  | zero => intro a; rfl
  | succ n ih =>
    intro a
    simp only [State.walk, h, ih]

/-- Settles O19: the mode is read from `satp` and the parameters, and the walk's reads are of the same bytes. -/
theorem translateReadsOnlySatpAndMemory : Obligations.TranslateReadsOnlySatpAndMemory := by
  intro s t va hp (hsatp : t.satp = s.satp) hm
  have hwalk := State.walk_congr_reads (s := s) (t := t) (fun pa => State.physRead_congr hp hm pa .double) va
  have hin : t.translateIn va = s.translateIn va := by
    funext m
    cases m <;> simp only [State.translateIn, hsatp, hwalk]
  rw [State.translate, State.translate, hp, hsatp, hin]

/-! ### Stores seen by loads and fetches (R95, R97) -/

/-- The exact sum of claims is the model's effective address (R170). -/
theorem ofInt_base_add_imm (base : Word) (imm : BitVec 12) : BitVec.ofInt 64 (base.toInt + imm.toInt) = base + imm12 imm := by
  simp [imm12, BitVec.signExtend, BitVec.ofInt_add]

/-- A store whose address is translated with W set and backed writes there, and advances `pc`. -/
theorem storeWith_of_backed {s : State} {w : Width} {rs1 rs2 : Reg} {imm : BitVec 12} {pa : Word} {r x : Bool}
    (ht : s.translate (effectiveAddress s rs1 imm) = .ok pa r true x) (hb : backed s.params.regions pa.toNat w.bytes = true) :
    ∃ t, s.physWrite pa w (s.x rs2) = some t ∧ storeWith w rs1 rs2 imm s = .next t.advance := by
  refine ⟨_, State.physWrite_of_backed hb _, ?_⟩
  simp [storeWith, State.memWrite, ht, State.physWrite_of_backed hb]

/-- A load whose address is translated with R set writes what it reads there to `rd`. -/
theorem loadWith_of_physRead {s : State} {w : Width} {ext : Word → Word} {rd rs1 : Reg} {imm : BitVec 12} {pa d : Word} {wr x : Bool}
    (ht : s.translate (effectiveAddress s rs1 imm) = .ok pa true wr x) (hd : s.physRead pa w = some d) :
    loadWith w ext rd rs1 imm s = .next (s.retire rd (ext d)) := by
  simp [loadWith, State.memRead, ht, hd]

/-- A store changes neither what `satp` names nor which modes are implemented. -/
theorem inMode_of_physWrite {s t : State} {pa v : Word} {w : Width} {m : TransMode} (h : s.physWrite pa w v = some t) (hm : InMode s m) :
    InMode t m := by
  rw [(State.physWrite_some h).2]
  exact hm

/-- Settles O31: the store writes at the translated address (`storeWith_of_backed`), where the load (`State.physRead_of_physWrite`) and
the fetch (`State.fetch_of_physWrite`) see it. -/
theorem storesAreSeen : Obligations.StoresAreSeen := by
  constructor
  · intro rd rs1 rs2 imm s hl hbare hr
    rw [ofInt_base_add_imm] at hr
    have hb : backed s.params.regions (effectiveAddress s rs1 imm).toNat 8 = true := (backed_iff hl (by decide)).2 hr
    obtain ⟨t, hw, hsd⟩ := storeWith_of_backed (w := .double) (rs2 := rs2) (State.translate_of_inMode hbare _) hb
    have hea : effectiveAddress t.advance rs1 imm = effectiveAddress s rs1 imm := by rw [(State.physWrite_some hw).2]; rfl
    have hbare' : InMode t.advance .bare := inMode_of_physWrite (t := t) hw hbare
    have hread : t.physRead (effectiveAddress s rs1 imm) .double = some (s.x rs2) := by
      have hslice := State.physRead_of_physWrite (w' := .double) hw (o := 0) rfl le_rfl hb
      simpa [Width.bytes] using hslice
    have htrans : t.advance.translate (effectiveAddress t.advance rs1 imm) = .ok (effectiveAddress s rs1 imm) true true true := by
      rw [hea]
      exact State.translate_of_inMode hbare' _
    refine ⟨t.advance, _, hsd, loadWith_of_physRead htrans hread, ?_⟩
    rw [State.x_retire]
    by_cases h0 : rd = 0#5 <;> simp [h0]
  · intro rs1 rs2 imm s pa r x ht hb
    rw [ofInt_base_add_imm] at ht
    obtain ⟨t, hw, hsw⟩ := storeWith_of_backed (w := .word) (rs2 := rs2) ht hb
    exact ⟨t.advance, hsw, State.fetch_of_physWrite (t := t) (w := .word) hw (by decide) hb⟩

/-! ### A raised exception in the sense of claims (60_exceptions R270 to R272) -/

/-- The gate of claims is the model's (R271). -/
theorem notGated_iff {s : State} : NotGated s ↔ s.params.trapGateObserved = false ∨ trapGateOpen s = true := by
  obtain ⟨-, hmstatus, -, hmie, -, -, -, -, hmip, -⟩ := s.csr_named
  rw [NotGated, hmstatus, hmie, hmip]
  simp [trapGateOpen, and_assoc]

/-- The two bits of a mode's encoding (R27). -/
theorem getLsbD_encodeMode (m : PrivMode) (i : Nat) : (encodeMode m).getLsbD i = (modeNumber m).testBit i := by
  cases m <;> rfl

/-- `mstatus` on trap entry, bit by bit (R270). -/
theorem getLsbD_mstatusOnTrap (v : Word) (m : PrivMode) {i : Nat} (hi : i < 64) :
    (mstatusOnTrap v m).getLsbD i =
      if i = 3 then false
      else if i = 7 then v.getLsbD 3
      else if i = 11 then (modeNumber m).testBit 0
      else if i = 12 then (modeNumber m).testBit 1
      else v.getLsbD i := by
  simp only [mstatusOnTrap, getLsbD_setField _ _ _ _ hi]
  by_cases h3 : i = 3
  · simp [h3]
  by_cases h7 : i = 7
  · simp [h7, mstatusMie]
  by_cases h11 : i = 11
  · subst h11
    exact getLsbD_encodeMode m 0
  by_cases h12 : i = 12
  · subst h12
    exact getLsbD_encodeMode m 1
  rw [if_neg h3, if_neg h7, if_neg h11, if_neg h12, if_neg (by omega), if_neg (by omega), if_neg (by omega)]

/-- The trap target as the exact number of claims (R272). -/
theorem trapTarget_eq (v : Word) : trapTarget v = BitVec.ofNat 64 (v.toNat / 4 * 4) := by
  have hshift : trapTarget v = v >>> 2 <<< 2 := by
    rw [BitVec.shiftLeft_ushiftRight]
    rfl
  apply BitVec.eq_of_toNat_eq
  simp [hshift, Nat.shiftRight_eq_div_pow, Nat.shiftLeft_eq]

theorem takesTrap_enterTrap (s : State) (e : Exception) : TakesTrap s ((s.report e).enterTrap e) e := by
  refine ⟨rfl, rfl, rfl, fun i hi => getLsbD_mstatusOnTrap _ _ hi, rfl, trapTarget_eq _, ?_, fun _ => rfl, fun _ => rfl, rfl, rfl, rfl⟩
  intro a h1 h2 h3 h4
  rw [State.csr_enterTrap_other _ _ (by simp [trapCsrs, *]), State.csr_report]

/-- Raising an exception traps in the sense of claims. -/
theorem traps_raise (s : State) (e : Exception) : Traps s (s.raise e) e := by
  refine ⟨fun h => ?_, fun h => ?_⟩
  · rw [State.raise_open (notGated_iff.1 h)]
    exact takesTrap_enterTrap s e
  · obtain ⟨h1, h2⟩ := not_or.1 (mt notGated_iff.2 h)
    rw [State.raise_closed (by simpa using h1) (by simpa using h2)]
    exact ⟨rfl, fun _ => rfl, fun _ => rfl, fun _ => rfl, rfl, rfl, rfl, rfl⟩

/-! ### The fetch and its fault (R70) -/

theorem step_of_noFetch {s : State} (hl : legalRegions s.params.regions = true) (hf : s.fetch = none) :
    step s = .next (s.beginStep.raise (.instructionAccessFault s.pc)) := by
  have hb : s.beginStep.fetch = none := hf
  unfold step runCycle fetchAndRun
  rw [if_pos hl, hb]
  rfl

/-- Settles O44: the fetch is a 4-byte physical read; where it misses, the step raises the fault (`traps_raise`). -/
theorem fetchRule : Obligations.FetchRule := by
  intro s hl
  have hb := backed_iff hl (pa := s.pc.toNat) (n := 4) (by decide)
  refine ⟨fun hr => ?_, fun hr => ?_⟩
  · refine ⟨_, by rw [s.fetch_eq_map, State.physRead_of_backed (w := .word) (hb.2 hr)]; rfl, ?_⟩
    have hlt : (Memory.readLE s.mem s.pc.toNat Width.word.bytes).toNat < 2 ^ 32 := Memory.readLE_lt ..
    rw [BitVec.toNat_setWidth, Nat.mod_eq_of_lt hlt]
    exact Memory.toNat_readLE s (by decide)
  · have hmiss : s.physRead s.pc .word = none := State.physRead_eq_none_iff.2 (Bool.eq_false_iff.2 fun h => hr (hb.1 h))
    have hf : s.fetch = none := by rw [s.fetch_eq_map, hmiss]; rfl
    exact ⟨hf, _, step_of_noFetch ((legalRegions_iff _).2 hl) hf, traps_raise s.beginStep _⟩

/-! ### Refusals (R61, R88, R265) -/

/-- What an instruction is refused for. -/
theorem exec_refused {i : Instr} {s : State} {r : Refusal} (h : exec i s = .refused r) :
    r = .translationNotImplemented ∧ IsLoadOrStore (encode i) ∧ ¬∃ m, InMode s m := by
  have heff := exec_effect i s
  rw [h] at heff
  cases heff with
  | notImplemented va hva hop => exact ⟨rfl, hop, State.translate_unsupported_iff.1 hva⟩

/-- What a step is refused for: its map, or the load or store that it fetched. -/
theorem step_refused {s : State} {r : Refusal} (h : step s = .refused r) :
    (¬LegalMap s.params.regions ∧ r = .illegalRegions) ∨
      (r = .translationNotImplemented ∧ ∃ w, s.fetch = some w ∧ IsLoadOrStore w ∧ ¬∃ m, InMode s m) := by
  unfold step runCycle at h
  split at h
  · refine .inr ?_
    unfold fetchAndRun at h
    rw [show s.beginStep.fetch = s.fetch from rfl] at h
    cases hf : s.fetch with
    | none => simp only [hf] at h; cases h
    | some w =>
      simp only [hf, runWord] at h
      cases hd : decode w with
      | error e => simp only [hd] at h; cases h
      | ok i =>
        simp only [hd] at h
        obtain ⟨hr, hop, hmode⟩ := exec_refused h
        exact ⟨hr, w, rfl, encode_of_decode hd ▸ hop, hmode⟩
  · cases h
    exact .inl ⟨mt (legalRegions_iff _).2 ‹_›, rfl⟩

/-- Settles O45: an illegal map is refused before the fetch, and no other step is refused for its map (`step_refused`). -/
theorem illegalMapRefused : Obligations.IllegalMapRefused := by
  refine ⟨fun s => ⟨fun h => ?_, fun hl => if_neg (mt (legalRegions_iff _).1 hl)⟩, fun s t h => by rw [parametersNeverChange s t h]⟩
  obtain ⟨hl, -⟩ | ⟨hr, -⟩ := step_refused h
  · exact hl
  · cases hr

theorem loadWith_of_unsupported {s : State} (h : ∀ va, s.translate va = .unsupported) (w : Width) (ext : Word → Word) (rd rs1 : Reg)
    (imm : BitVec 12) : loadWith w ext rd rs1 imm s = .refused .translationNotImplemented := by
  simp [loadWith, State.memRead, h]

theorem storeWith_of_unsupported {s : State} (h : ∀ va, s.translate va = .unsupported) (w : Width) (rs1 rs2 : Reg) (imm : BitVec 12) :
    storeWith w rs1 rs2 imm s = .refused .translationNotImplemented := by
  simp [storeWith, State.memWrite, h]

/-- Every load and store is refused where nothing can be translated. -/
theorem exec_of_unsupported {i : Instr} {s : State} (hop : IsLoadOrStore (encode i)) (h : ∀ va, s.translate va = .unsupported) :
    exec i s = .refused .translationNotImplemented := by
  cases i with
  | lb | lh | lw | ld | lbu | lhu | lwu => exact loadWith_of_unsupported h ..
  | sb | sh | sw | sd => exact storeWith_of_unsupported h ..
  | ecall | ebreak | mret => exact absurd hop (not_or.2 (by decide))
  | _ => simp [IsLoadOrStore, encode] at hop

/-- Settles O46: `Unsupported` exactly without an implemented mode, and what is refused exactly for that (`exec_refused`,
`exec_of_unsupported`). -/
theorem onlyUnsupportedAccessesRefused : Obligations.OnlyUnsupportedAccessesRefused := by
  refine ⟨fun s va => State.translate_unsupported_iff, fun i s => ⟨fun h => (exec_refused h).2, fun ⟨hop, hm⟩ => ?_⟩,
    fun i s r h => (exec_refused h).1⟩
  exact exec_of_unsupported hop fun va => State.translate_unsupported_iff.2 hm

/-! ### What changes memory (R64, R67, R89) -/

/-- A byte that an effect changes lies in the backed bytes of a store, whose address was translated with W set. -/
theorem Effect.byte_changed {i : Instr} {s t : State} {a : Nat} (h : Effect i s (.next t)) (hne : t.byte a ≠ s.byte a) :
    ∃ pa r x n, opcodeOf (encode i) = 0b0100011#7 ∧ t.faultOut = s.faultOut ∧ n = 2 ^ (funct3Of (encode i)).toNat ∧
      s.translate (s.x (rs1Of (encode i)) + imm12 (immSOf (encode i))) = .ok pa r true x ∧
      pa.toNat ≤ a ∧ a < pa.toNat + n ∧ backed s.params.regions pa.toNat n = true := by
  cases h with
  | store pa w v r x hb ht hop hw =>
    have hin : ¬(a < pa.toNat ∨ pa.toNat + w.bytes ≤ a) := fun hout => hne (Memory.get_writeLE_outside _ _ _ _ _ hout)
    exact ⟨pa, r, x, w.bytes, hop, rfl, hw, ht, by omega, by omega, hb⟩
  | retire | jump | csr | raise => exact absurd (congrArg (Memory.get · a) (by simp [jumpTo, csrUpdate])) hne
  | onlyPc | ret => exact absurd rfl hne

/-- The state that a step's work starts in translates alike. -/
theorem State.translate_started (s : State) (w : InstrWord) (va : Word) : (s.beginStep.latchInstr w).translate va = s.translate va :=
  State.translate_congr rfl rfl rfl va

/-- Settles O56: a trap changes no byte, and an effect only as `Effect.byte_changed` says; translation in the state that the step's work
starts in is translation in `s`. -/
theorem memoryWriters : Obligations.MemoryWriters := by
  intro s t a h hne
  obtain ⟨w, ⟨e, -, rfl⟩ | ⟨i, hf, rfl, hx⟩⟩ := step_cases h
  · exact absurd (congrArg (Memory.get · a) (State.raise_mem ..)) hne
  · obtain ⟨pa, r, x, n, hop, hfault, hn, ht, hrest⟩ := hx.byte_changed hne
    rw [State.translate_started, ← ofInt_base_add_imm] at ht
    exact ⟨_, pa, r, x, n, hf, hop, hfault, hn, ht, hrest⟩

end Sys2Proof.Machine
end

section
/-! PROOF. The statements of 30_encoding: decoding and encoding are inverse (R111 to R117, R125 to R127), the operand fields (R118 to
R123), the opcode table (R127), the illegal words and their trap (R128, R225, R245), and the hints (R129). -/

namespace Sys2Proof

/-! ### Decoding what was encoded (R111 to R116, R125 to R127) -/

/-- The three 4-bit fields of FENCE are the I immediate (R230). -/
theorem decodeFence_encI (fm pred succ : BitVec 4) (rs1 : Reg) (f3 : BitVec 3) (rd : Reg) (op : BitVec 7) :
    decodeFence (encI (fm ++ pred ++ succ) rs1 f3 rd op) = .fence fm pred succ rs1 f3 rd := by
  rw [decodeFence, rs1Of_encI, funct3Of_encI, rdOf_encI]
  simp (disch := decide) only [encI, extractLsb'_append_upper, extractLsb'_append_lower, Nat.reduceSub, extractLsb'_whole]

/-- Settles O3, opcode by opcode: each field that the decoder reads is the one that the encoder wrote (the lemmas of Laws/Encode). -/
theorem decodeOfEncode : Obligations.DecodeOfEncode := by
  intro i h
  cases i with
  | lui | auipc | jalr => simp [encode, decode]
  | jal => simp [encode, decode, immJOf_encJ _ _ _ h]
  | beq | bne | blt | bge | bltu | bgeu => simp [encode, decode, decodeBranch, immBOf_encB _ _ _ _ _ h]
  | lb | lh | lw | ld | lbu | lhu | lwu => simp [encode, decode, decodeLoad]
  | sb | sh | sw | sd => simp [encode, decode, decodeStore, immSOf_encS]
  | addi | slti | sltiu | xori | ori | andi | slli | srli | srai => simp [encode, decode, decodeOpImm]
  | addiw | slliw | srliw | sraiw => simp [encode, decode, decodeOpImm32]
  | add | sll | slt | sltu | xor | srl | or | and => simp [encode, decode, decodeOp, decodeOpBase]
  | sub | sra => simp [encode, decode, decodeOp]
  | addw | subw | sllw | srlw | sraw => simp [encode, decode, decodeOp32]
  | fence => simp [encode, decode, decodeFence_encI]
  | ecall | ebreak | mret => rfl
  | csrrw | csrrs | csrrc | csrrwi | csrrsi | csrrci => simp [encode, decode, decodeSystem]

/-! ### What decodes the words of an opcode (R126) -/

theorem decode_of_jal {w : InstrWord} (hop : opcodeOf w = 0b1101111#7) : decode w = .ok (.jal (rdOf w) (immJOf w)) := by
  simp [decode, hop]

theorem decode_of_branch {w : InstrWord} (hop : opcodeOf w = 0b1100011#7) : decode w = decodeBranch w := by simp [decode, hop]

theorem decode_of_op {w : InstrWord} (hop : opcodeOf w = 0b0110011#7) : decode w = decodeOp w := by simp [decode, hop]

theorem decode_of_op32 {w : InstrWord} (hop : opcodeOf w = 0b0111011#7) : decode w = decodeOp32 w := by simp [decode, hop]

theorem decode_of_system {w : InstrWord} (hop : opcodeOf w = 0b1110011#7) : decode w = decodeSystem w := by simp [decode, hop]

/-! ### Encoding what was decoded (R117, R120, R122) -/

/-- An offset that ends in the bit 0 is even. -/
theorem offsetEven_append_zero {n : Nat} (x : BitVec n) : offsetEven (x ++ 0#1) = true := by
  rw [offsetEven, BitVec.getLsbD_append]
  rfl

theorem wellFormed_of_decodeBranch {w : InstrWord} {i : Instr} (h : decodeBranch w = .ok i) : i.wellFormed = true := by
  unfold decodeBranch at h
  split at h <;> cases h <;> exact offsetEven_append_zero _

/-- Only the jumps and branches with an offset could be ill-formed, and theirs ends in the bit 0 that the decoder puts there. -/
theorem wellFormed_of_decode {w : InstrWord} {i : Instr} (h : decode w = .ok i) : i.wellFormed = true := by
  have hw := encode_of_decode h
  cases i with
  | jal rd off =>
    rw [decode_of_jal (by rw [← hw]; simp [encode])] at h
    cases h
    exact offsetEven_append_zero _
  | beq | bne | blt | bge | bltu | bgeu =>
    rw [decode_of_branch (by rw [← hw]; simp [encode])] at h
    exact wellFormed_of_decodeBranch h
  | _ => rfl

/-- Settles O4. -/
theorem encodeOfDecode : Obligations.EncodeOfDecode := fun _ _ h => ⟨wellFormed_of_decode h, encode_of_decode h⟩

/-! ### The opcode table (R127) -/

/-- A word is an instruction or illegal, not both. -/
theorem decode_error_iff {w : InstrWord} : (∃ e, decode w = .error e) ↔ ¬∃ i, decode w = .ok i := by
  cases decode w <;> simp

/-- Every instruction's encoding selects the row with its mnemonic. -/
theorem encode_selects_row : ∀ i : Instr, Laws.EncodeSelectsRow.Statement i := by
  open Laws.EncodeSelectsRow in
  intro i
  cases i
  exacts [lui .., auipc .., jal .., jalr ..,
    beq .., bne .., blt .., bge .., bltu .., bgeu ..,
    lb .., lh .., lw .., ld .., lbu .., lhu .., lwu .., sb .., sh .., sw .., sd ..,
    addi .., slti .., sltiu .., xori .., ori .., andi .., slli .., srli .., srai ..,
    addiw .., slliw .., srliw .., sraiw ..,
    add .., sub .., sll .., slt .., sltu .., xor .., srl .., sra .., or .., and ..,
    addw .., subw .., sllw .., srlw .., sraw ..,
    fence .., ecall, ebreak, mret, csrrw .., csrrs .., csrrc .., csrrwi .., csrrsi .., csrrci ..]

theorem opcodeRows_mnemonic_nodup : (opcodeRows.map OpcodeRow.mnemonic).Nodup := by decide

/-- A row is known by its mnemonic. -/
theorem opcodeRow_eq_of_mnemonic {r q : OpcodeRow} (hr : r ∈ opcodeRows) (hq : q ∈ opcodeRows) (h : r.mnemonic = q.mnemonic) : r = q :=
  List.inj_on_of_nodup_map opcodeRows_mnemonic_nodup hr hq h

/-- The mnemonic of what a word decodes to, if it is legal. -/
def kindOf (w : InstrWord) : Except DecodeError String := (decode w).map mnemonicOf

theorem kindOf_eq_ok_iff {w : InstrWord} {m : String} : kindOf w = .ok m ↔ ∃ i, decode w = .ok i ∧ mnemonicOf i = m := by
  unfold kindOf
  cases decode w <;> simp [Except.map]

theorem selects_eq_true_iff {r : OpcodeRow} {w : InstrWord} : r.selects w = true ↔ w &&& r.mask = r.value := decide_eq_true_iff

/-- A field of a word that selects a row is the one in the row's value, where the mask covers all of it. -/
theorem slice_of_selects {r : OpcodeRow} {w : InstrWord} (h : r.selects w = true) {lo n : Nat}
    (hm : r.mask.extractLsb' lo n = BitVec.allOnes n) : w.extractLsb' lo n = r.value.extractLsb' lo n := by
  rw [← selects_eq_true_iff.1 h, BitVec.extractLsb'_and, hm, BitVec.and_allOnes]

/-! Which fields each row's mask covers (R126): `opcode` always, and the others where the decoder examines them. -/

theorem opcodeRows_mask_opcode : ∀ r ∈ opcodeRows, opcodeOf r.mask = BitVec.allOnes 7 := by decide

theorem opcodeRows_mask_funct3 : ∀ r ∈ opcodeRows,
    opcodeOf r.value ∉ [0b0110111#7, 0b0010111#7, 0b1101111#7, 0b1100111#7, 0b0001111#7] → funct3Of r.mask = BitVec.allOnes 3 := by
  decide

theorem opcodeRows_mask_funct6 : ∀ r ∈ opcodeRows, opcodeOf r.value = 0b0010011#7 →
    funct3Of r.value = 0b001#3 ∨ funct3Of r.value = 0b101#3 → funct6Of r.mask = BitVec.allOnes 6 := by decide

theorem opcodeRows_mask_funct7 : ∀ r ∈ opcodeRows, opcodeOf r.value = 0b0110011#7 ∨ opcodeOf r.value = 0b0111011#7 ∨
    (opcodeOf r.value = 0b0011011#7 ∧ funct3Of r.value ≠ 0b000#3) → funct7Of r.mask = BitVec.allOnes 7 := by decide

theorem opcodeRows_mask_system : ∀ r ∈ opcodeRows, opcodeOf r.value = 0b1110011#7 → funct3Of r.value = 0b000#3 →
    r.mask = BitVec.allOnes 32 := by decide

/-- Each row's value is itself an encoding of the row's instruction. -/
theorem opcodeRows_kindOf_value : ∀ r ∈ opcodeRows, kindOf r.value = .ok r.mnemonic := by decide

/-! What each table decodes to, up to operands, is told by the fields that it examines. -/

theorem decodeBranch_kind_congr {w v : InstrWord} (h3 : funct3Of w = funct3Of v) :
    (decodeBranch w).map mnemonicOf = (decodeBranch v).map mnemonicOf := by
  unfold decodeBranch
  rw [h3]
  split <;> rfl

theorem decodeLoad_kind_congr {w v : InstrWord} (h3 : funct3Of w = funct3Of v) :
    (decodeLoad w).map mnemonicOf = (decodeLoad v).map mnemonicOf := by
  unfold decodeLoad
  rw [h3]
  split <;> rfl

theorem decodeStore_kind_congr {w v : InstrWord} (h3 : funct3Of w = funct3Of v) :
    (decodeStore w).map mnemonicOf = (decodeStore v).map mnemonicOf := by
  unfold decodeStore
  rw [h3]
  split <;> rfl

theorem decodeOpImm_kind_congr {w v : InstrWord} (h3 : funct3Of w = funct3Of v)
    (h6 : funct3Of v = 0b001#3 ∨ funct3Of v = 0b101#3 → funct6Of w = funct6Of v) :
    (decodeOpImm w).map mnemonicOf = (decodeOpImm v).map mnemonicOf := by
  unfold decodeOpImm
  rw [h3]
  split
  case h_7 hf =>
    rw [h6 (.inl hf)]
    split <;> rfl
  case h_8 =>
    rw [h6 (.inr (by apply funct3_eq_five <;> assumption))]
    split <;> rfl
  all_goals rfl

theorem decodeOpImm32_kind_congr {w v : InstrWord} (h3 : funct3Of w = funct3Of v)
    (h7 : funct3Of v ≠ 0b000#3 → funct7Of w = funct7Of v) :
    (decodeOpImm32 w).map mnemonicOf = (decodeOpImm32 v).map mnemonicOf := by
  unfold decodeOpImm32
  rw [h3]
  split
  case h_2 hf | h_3 hf =>
    rw [h7 (by rw [hf]; decide)]
    split <;> rfl
  all_goals rfl

theorem decodeOpBase_kind_congr {w v : InstrWord} (h3 : funct3Of w = funct3Of v) :
    mnemonicOf (decodeOpBase w) = mnemonicOf (decodeOpBase v) := by
  unfold decodeOpBase
  rw [h3]
  split <;> rfl

theorem decodeOp_kind_congr {w v : InstrWord} (h3 : funct3Of w = funct3Of v) (h7 : funct7Of w = funct7Of v) :
    (decodeOp w).map mnemonicOf = (decodeOp v).map mnemonicOf := by
  unfold decodeOp
  rw [h7, h3]
  split
  case h_1 => exact congrArg Except.ok (decodeOpBase_kind_congr h3)
  case h_2 => split <;> rfl
  case h_3 => rfl

theorem decodeOp32_kind_congr {w v : InstrWord} (h3 : funct3Of w = funct3Of v) (h7 : funct7Of w = funct7Of v) :
    (decodeOp32 w).map mnemonicOf = (decodeOp32 v).map mnemonicOf := by
  unfold decodeOp32
  rw [h7, h3]
  split
  case h_3 => rfl
  all_goals split <;> rfl

theorem decodeSystem_kind_congr {w v : InstrWord} (h3 : funct3Of w = funct3Of v) (h0 : funct3Of v = 0b000#3 → w = v) :
    (decodeSystem w).map mnemonicOf = (decodeSystem v).map mnemonicOf := by
  unfold decodeSystem
  rw [h3]
  split
  case h_1 hf => rw [h0 hf]
  all_goals rfl

/-- A word that selects a row is of the same kind as the row's value: opcode by opcode, the mask covers what the decoder examines. -/
theorem kindOf_of_selects {r : OpcodeRow} (hr : r ∈ opcodeRows) {w : InstrWord} (h : r.selects w = true) :
    kindOf w = kindOf r.value := by
  have hop : opcodeOf w = opcodeOf r.value := slice_of_selects h (opcodeRows_mask_opcode r hr)
  have h3 := fun hx => slice_of_selects h (opcodeRows_mask_funct3 r hr hx)
  have h6 := fun hx hf => slice_of_selects h (opcodeRows_mask_funct6 r hr hx hf)
  have h7 := fun hx => slice_of_selects h (opcodeRows_mask_funct7 r hr hx)
  unfold kindOf decode
  rw [hop]
  split
  case h_6 hv => exact decodeBranch_kind_congr (h3 (by rw [hv]; decide))
  case h_7 hv => exact decodeLoad_kind_congr (h3 (by rw [hv]; decide))
  case h_8 hv => exact decodeStore_kind_congr (h3 (by rw [hv]; decide))
  case h_9 hv => exact decodeOpImm_kind_congr (h3 (by rw [hv]; decide)) (h6 hv)
  case h_10 hv => exact decodeOpImm32_kind_congr (h3 (by rw [hv]; decide)) fun hf => h7 (.inr (.inr ⟨hv, hf⟩))
  case h_11 hv => exact decodeOp_kind_congr (h3 (by rw [hv]; decide)) (h7 (.inl hv))
  case h_12 hv => exact decodeOp32_kind_congr (h3 (by rw [hv]; decide)) (h7 (.inr (.inl hv)))
  case h_13 hv =>
    refine decodeSystem_kind_congr (h3 (by rw [hv]; decide)) fun hf => ?_
    rwa [selects_eq_true_iff, opcodeRows_mask_system r hr hv hf, BitVec.and_allOnes] at h
  all_goals rfl

/-- A row selects exactly the words that decode to its instruction. -/
theorem selects_iff {r : OpcodeRow} (hr : r ∈ opcodeRows) {w : InstrWord} :
    r.selects w = true ↔ ∃ i, decode w = .ok i ∧ mnemonicOf i = r.mnemonic := by
  refine ⟨fun h => kindOf_eq_ok_iff.1 ((kindOf_of_selects hr h).trans (opcodeRows_kindOf_value r hr)), fun ⟨i, hd, hm⟩ => ?_⟩
  obtain ⟨q, hq, hqm, hsel⟩ := encode_selects_row i
  rwa [opcodeRow_eq_of_mnemonic hr hq (hm.symm.trans hqm.symm), ← encode_of_decode hd]

/-- The illegal words are those that no row selects. -/
theorem decode_error_iff_no_row {w : InstrWord} : (∃ e, decode w = .error e) ↔ ∀ r ∈ opcodeRows, r.selects w = false := by
  rw [decode_error_iff]
  refine ⟨fun h r hr => Bool.eq_false_iff.2 fun hsel => h ?_, fun h ⟨i, hd⟩ => ?_⟩
  · obtain ⟨i, hd, -⟩ := (selects_iff hr).1 hsel
    exact ⟨i, hd⟩
  · obtain ⟨r, hr, -, hsel⟩ := encode_selects_row i
    simp [encode_of_decode hd, h r hr] at hsel

/-- Settles O5: no two rows have one mnemonic, so a word, which decodes to at most one instruction, selects at most one row. -/
theorem opcodeTableSelects : Obligations.OpcodeTableSelects := by
  refine ⟨fun w r hr => selects_iff hr, fun w => decode_error_iff_no_row.symm, fun w r hr q hq hrw hqw => ?_⟩
  obtain ⟨i, hi, hir⟩ := (selects_iff hr).1 hrw
  obtain ⟨j, hj, hjq⟩ := (selects_iff hq).1 hqw
  cases hi.symm.trans hj
  exact opcodeRow_eq_of_mnemonic hr hq (hir.symm.trans hjq)

/-! ### Illegal words (R125, R128, R225, R245) -/

/-- The thirteen major opcodes (R125). -/
def majorOpcodes : List (BitVec 7) :=
  [0b0110111#7, 0b0010111#7, 0b1101111#7, 0b1100111#7, 0b0001111#7, 0b1100011#7, 0b0000011#7, 0b0100011#7, 0b0010011#7, 0b0011011#7,
    0b0110011#7, 0b0111011#7, 0b1110011#7]

theorem opcodeOf_mem_of_decode {w : InstrWord} {i : Instr} (h : decode w = .ok i) : opcodeOf w ∈ majorOpcodes := by
  unfold decode at h
  split at h <;> rename_i hop
  case h_14 => cases h
  all_goals rw [hop]; decide

theorem decode_error_of_opcode {w : InstrWord} (h : opcodeOf w ∉ majorOpcodes) : ∃ e, decode w = .error e :=
  decode_error_iff.2 fun ⟨_, hd⟩ => h (opcodeOf_mem_of_decode hd)

/-- The low two bits of a word are those of its opcode, and in every major opcode they are 11. -/
theorem opcodeOf_not_mem_of_short {w : InstrWord} (h : w.toNat % 4 ≠ 3) : opcodeOf w ∉ majorOpcodes := by
  have hmajor : ∀ op ∈ majorOpcodes, op.toNat % 4 = 3 := by decide
  intro hm
  have hop := hmajor _ hm
  rw [opcodeOf, BitVec.extractLsb'_toNat, Nat.shiftRight_zero] at hop
  omega

/-- In OP and OP-32 only two values of `funct7` are legal (R225). -/
theorem decode_error_of_funct7 {w : InstrWord} (hop : opcodeOf w = 0b0110011#7 ∨ opcodeOf w = 0b0111011#7)
    (h0 : funct7Of w ≠ 0b0000000#7) (h32 : funct7Of w ≠ 0b0100000#7) : decode w = .error .unmatchedFunct7 := by
  obtain hop | hop := hop
  · rw [decode_of_op hop, decodeOp]
    split
    case h_1 h => exact absurd h h0
    case h_2 h => exact absurd h h32
    case h_3 => rfl
  · rw [decode_of_op32 hop, decodeOp32]
    split
    case h_1 h => exact absurd h h0
    case h_2 h => exact absurd h h32
    case h_3 => rfl

/-- In SYSTEM with `funct3 = 000` only three words are legal (R245). -/
theorem decode_error_of_system {w : InstrWord} (hop : opcodeOf w = 0b1110011#7) (h3 : funct3Of w = 0b000#3)
    (hecall : w ≠ 0x00000073#32) (hebreak : w ≠ 0x00100073#32) (hmret : w ≠ 0x30200073#32) :
    decode w = .error .unmatchedSystem := by
  rw [decode_of_system hop]
  simp [decodeSystem, decodeSystemZero, h3, hecall, hebreak, hmret]

end Sys2Proof

namespace Sys2Proof.Machine

/-- A step at an illegal word raises IllegalInstruction (R128). -/
theorem step_of_illegal {s : State} {w : InstrWord} {e : DecodeError} (hl : legalRegions s.params.regions = true)
    (hf : s.fetch = some w) (hd : decode w = .error e) : step s = .next ((s.beginStep.latchInstr w).raise .illegalInstruction) := by
  have hb : s.beginStep.fetch = some w := hf
  unfold step runCycle fetchAndRun runWord
  rw [if_pos hl, hb]
  simp only [hd]

/-- Settles O6: the illegal words clause by clause, the opcode table by `decode_error_iff_no_row`, the trap by `traps_raise`. -/
theorem illegalWordsTrap : Obligations.IllegalWordsTrap := by
  refine ⟨fun w h => decode_error_of_opcode (opcodeOf_not_mem_of_short h), fun w h => decode_error_of_opcode ?_,
    fun w hop h0 h32 => ⟨_, decode_error_of_funct7 hop h0 h32⟩, fun w hop h3 h1 h2 h4 => ⟨_, decode_error_of_system hop h3 h1 h2 h4⟩,
    fun w => decode_error_iff_no_row.2, fun s w e hl hf hd => ?_⟩
  · generalize opcodeOf w = op at h
    revert op
    decide
  · exact ⟨_, step_of_illegal ((legalRegions_iff _).2 hl) hf hd, State.raise_instrOut .., traps_raise (s.beginStep.latchInstr w) _⟩

/-! ### Hints (R129) -/

theorem onlyPc_advance (s : State) : OnlyPc s s.advance (nextPc s) :=
  ⟨(nextPc_eq s).symm, fun _ => rfl, fun _ => rfl, fun _ => rfl, rfl, rfl, rfl, rfl, rfl⟩

/-- A write to `x0` is discarded (R21). -/
theorem State.setX_zero (s : State) (v : Word) : s.setX 0#5 v = s := if_pos rfl

/-- Only loads, stores and SYSTEM instructions raise an exception. -/
theorem RaisedBy.opcode {i : Instr} {s : State} {e : Exception} (h : RaisedBy i s e) :
    opcodeOf (encode i) = 0b0000011#7 ∨ opcodeOf (encode i) = 0b0100011#7 ∨ opcodeOf (encode i) = 0b1110011#7 := by
  cases e with
  | loadPageFault | loadAccessFault => exact .inl h.1
  | storePageFault | storeAccessFault => exact .inr (.inl h.1)
  | breakpoint => exact .inr (.inr (by rw [show i = .ebreak from h]; rfl))
  | environmentCallFromU | environmentCallFromS | environmentCallFromH | environmentCallFromM =>
    exact .inr (.inr (by rw [h.1]; rfl))
  | _ => exact h.elim

/-- The opcodes of LUI, AUIPC, OP-IMM, OP-IMM-32, OP and OP-32. -/
def arithOpcodes : List (BitVec 7) := [0b0110111#7, 0b0010111#7, 0b0010011#7, 0b0011011#7, 0b0110011#7, 0b0111011#7]

/-- Of the effects an instruction can have, an arithmetic one has two: it retires, or it moves `pc` on. -/
theorem Effect.of_arith {i : Instr} {s : State} {o : Host.Outcome State Fault Refusal} (h : Effect i s o)
    (hop : opcodeOf (encode i) ∈ arithOpcodes) : (∃ v, o = .next (s.retire (rdOf (encode i)) v)) ∨ o = .next s.advance := by
  have hne : ∀ op, op ∉ arithOpcodes → opcodeOf (encode i) ≠ op := fun op hn he => hn (he ▸ hop)
  cases h with
  | retire rd v hrd => exact .inl ⟨v, by rw [hrd]⟩
  | onlyPc target ht => exact .inr (by rw [ht.resolve_left (hne _ (by decide))]; rfl)
  | jump rd target hrd hj => exact ((List.mem_pair.1 hj).elim (hne _ (by decide)) (hne _ (by decide))).elim
  | store pa w v r x hb ht hs => exact absurd hs (hne _ (by decide))
  | csr rd a v hrd ha hc => exact absurd hc.1 (hne _ (by decide))
  | raise e he => obtain he | he | he := he.opcode <;> exact absurd he (hne _ (by decide))
  | ret hi => exact absurd (by rw [hi]; rfl) (hne 0b1110011#7 (by decide))
  | notImplemented va hva hls => exact (hls.elim (hne _ (by decide)) (hne _ (by decide))).elim

/-- Settles O28: an arithmetic instruction retires (`Effect.of_arith`), and with `rd = x0` that only advances `pc`. -/
theorem hintsOnlyAdvancePc : Obligations.HintsOnlyAdvancePc := by
  intro i s hrd hop
  refine ⟨s.advance, ?_, onlyPc_advance s⟩
  obtain ⟨v, h⟩ | h := (exec_effect i s).of_arith hop
  · rw [h, hrd, State.retire, State.setX_zero]
  · exact h

/-! ### Operand fields (R118 to R123) -/

/-- A field of a word, as the number of its bits. -/
theorem toNat_slice (w : InstrWord) (lo n : Nat) (hn : 0 < n) : ((w.extractLsb' lo n).toNat : Int) = bitsOf w (lo + n - 1) lo := by
  rw [BitVec.extractLsb'_toNat, Nat.shiftRight_eq_div_pow, bitsOf, show lo + n - 1 + 1 - lo = n by omega]

/-- A signed field is its upper part, moved up, and its lower part, which is unsigned. -/
theorem toInt_append_eq_add (n : Nat) {m : Nat} [NeZero n] (x : BitVec n) (y : BitVec m) :
    (x ++ y).toInt = 2 ^ m * x.toInt + y.toNat := by
  rw [BitVec.toInt_append, if_neg (by simpa using NeZero.ne n)]

/-- The top bit of a signed field counts negatively (R13). -/
theorem toInt_one_bit (b : BitVec 1) : b.toInt = -(b.toNat : Int) := by
  revert b
  decide

/-- `immI` (R118). -/
theorem toInt_immIOf (w : InstrWord) : (immIOf w).toInt = bitsOf w 30 20 - 2 ^ 11 * bitsOf w 31 31 := by
  rw [immIOf, ← extractLsb'_adjacent w 20 11 1, toInt_append_eq_add 1]
  simp (disch := decide) only [toInt_one_bit, toNat_slice, Nat.reduceAdd, Nat.reduceSub]
  ring

/-- `immS` (R119). -/
theorem toInt_immSOf (w : InstrWord) : (immSOf w).toInt = 2 ^ 5 * bitsOf w 30 25 + bitsOf w 11 7 - 2 ^ 11 * bitsOf w 31 31 := by
  rw [immSOf, ← extractLsb'_adjacent w 25 6 1, toInt_append_eq_add 7, toInt_append_eq_add 1]
  simp (disch := decide) only [toInt_one_bit, toNat_slice, Nat.reduceAdd, Nat.reduceSub]
  ring

/-- `immB` (R120). -/
theorem toInt_immBOf (w : InstrWord) : (immBOf w).toInt =
    2 ^ 11 * bitsOf w 7 7 + 2 ^ 5 * bitsOf w 30 25 + 2 * bitsOf w 11 8 - 2 ^ 12 * bitsOf w 31 31 := by
  rw [immBOf, toInt_append_eq_add 12, toInt_append_eq_add 8, toInt_append_eq_add 2, toInt_append_eq_add 1]
  simp (disch := decide) only [toInt_one_bit, toNat_slice, Nat.reduceAdd, Nat.reduceSub, BitVec.toNat_ofNat]
  ring

/-- The bits of `immU`, of which the low 12 are 0 (R121). -/
theorem toInt_immUOf_append_zero (w : InstrWord) : (immUOf w ++ 0#12).toInt = 2 ^ 12 * bitsOf w 30 12 - 2 ^ 31 * bitsOf w 31 31 := by
  rw [immUOf, ← extractLsb'_adjacent w 12 19 1, toInt_append_eq_add 20, toInt_append_eq_add 1]
  simp (disch := decide) only [toInt_one_bit, toNat_slice, Nat.reduceAdd, Nat.reduceSub, BitVec.toNat_ofNat]
  ring

/-- `immJ` (R122). -/
theorem toInt_immJOf (w : InstrWord) : (immJOf w).toInt =
    2 ^ 12 * bitsOf w 19 12 + 2 ^ 11 * bitsOf w 20 20 + 2 * bitsOf w 30 21 - 2 ^ 20 * bitsOf w 31 31 := by
  rw [immJOf, toInt_append_eq_add 20, toInt_append_eq_add 10, toInt_append_eq_add 9, toInt_append_eq_add 1]
  simp (disch := decide) only [toInt_one_bit, toNat_slice, Nat.reduceAdd, Nat.reduceSub, BitVec.toNat_ofNat]
  ring

/-- Settles O2: sign extension keeps the number of an immediate, and an unsigned field is a slice of the word (`toNat_slice`). -/
theorem operandFields : Obligations.OperandFields := by
  intro w
  have hsext : ∀ {n : Nat} (v : BitVec n), n ≤ 64 → (v.signExtend 64).toInt = v.toInt := fun _ => BitVec.toInt_signExtend_of_le
  have huimm : (uimmWord (rs1Of w)).toNat = (rs1Of w).toNat := BitVec.toNat_setWidth_of_le (by decide)
  refine ⟨(hsext _ (by decide)).trans (toInt_immIOf w), (hsext _ (by decide)).trans (toInt_immSOf w),
    (hsext _ (by decide)).trans (toInt_immBOf w), (hsext _ (by decide)).trans (toInt_immUOf_append_zero w),
    (hsext _ (by decide)).trans (toInt_immJOf w), ?_⟩
  rw [huimm]
  exact ⟨toNat_slice w 7 5 (by decide), toNat_slice w 15 5 (by decide), toNat_slice w 20 5 (by decide), toNat_slice w 20 6 (by decide),
    toNat_slice w 26 6 (by decide), toNat_slice w 25 7 (by decide), toNat_slice w 20 12 (by decide), toNat_slice w 15 5 (by decide)⟩

/-! ### Words of the spec -/

/-- Settles O1: each word is decoded by running the decoder. -/
theorem wordsDecodeAsSpecified : Obligations.WordsDecodeAsSpecified := by
  unfold Obligations.WordsDecodeAsSpecified
  decide

end Sys2Proof.Machine
end

section
/-! PROOF. The statement of 40_lui_auipc (R140, R141): the two instructions retire a value, whose exact number is that of the field
with 12 zero bits below it. -/

namespace Sys2Proof.Machine

/-- Retiring writes `rd`, moves `pc` on and changes nothing else (R21, R25). -/
theorem writesReg_retire (s : State) (rd : Reg) (v : Word) : WritesReg s (s.retire rd v) rd v (nextPc s) :=
  ⟨fun r => s.x_retire rd r v, (State.retire_pc ..).trans (nextPc_eq s).symm, s.csr_retire rd v,
    fun a => congrArg (Memory.get · a) (State.retire_mem ..),
    State.retire_priv .., State.retire_params .., State.retire_faultOut .., State.retire_debugTrap .., State.retire_instrOut ..⟩

/-- An instruction that retires a value computes it. -/
theorem computes_of_retire {i : Instr} {s : State} {rd : Reg} {v : Word} (h : exec i s = .next (s.retire rd v)) :
    Computes i s rd v := ⟨_, h, writesReg_retire s rd v⟩

/-- The number of `immU`: the field counts from bit 12, with its sign (R121). -/
theorem toInt_immU (imm20 : BitVec 20) : (immU imm20).toInt = imm20.toInt * 2 ^ 12 := by
  rw [immU, BitVec.toInt_signExtend_of_le (by decide), toInt_append_eq_add 20, BitVec.toNat_zero, Int.natCast_zero, add_zero, mul_comm]

/-- The value of LUI (R140). -/
theorem immU_eq_ofInt (imm20 : BitVec 20) : immU imm20 = BitVec.ofInt 64 (imm20.toInt * 2 ^ 12) := by
  rw [← toInt_immU, BitVec.ofInt_toInt]

/-- The value of AUIPC (R141). -/
theorem add_immU_eq_ofInt (pc : Word) (imm20 : BitVec 20) :
    pc + immU imm20 = BitVec.ofInt 64 (pc.toInt + imm20.toInt * 2 ^ 12) := by
  rw [BitVec.ofInt_add, BitVec.ofInt_toInt, immU_eq_ofInt]

/-- Settles O20: each word is the instruction's encoding (`decodeOfEncode`), and the value retired is the exact number. -/
theorem upperImmediateRules : Obligations.UpperImmediateRules := by
  intro rd imm20 s
  refine ⟨⟨decodeOfEncode (.lui rd imm20) rfl, ?_⟩, ⟨decodeOfEncode (.auipc rd imm20) rfl, ?_⟩⟩
  · rw [← immU_eq_ofInt]
    exact computes_of_retire rfl
  · rw [← add_immU_eq_ofInt]
    exact computes_of_retire rfl

end Sys2Proof.Machine
end

section
/-! PROOF. The statements of 41_jumps_branches (R150 to R157): the jumps link and set `pc`, the branches set `pc` alone; a target is an
exact sum narrowed to 64 bits, a condition one on exact numbers. -/

namespace Sys2Proof.Machine

/-! ### Offsets and targets -/

/-- An offset is even where its number is, which is what the B and J formats can encode (R120, R122). -/
theorem offsetEven_of_toNat {n : Nat} {off : BitVec n} (h : off.toNat % 2 = 0) : offsetEven off = true := by
  simp [offsetEven, BitVec.getLsbD, Nat.testBit_zero, h]

/-- The exact sum of claims is the model's `pc` plus offset (R150, R152). -/
theorem ofInt_pc_add_offset {n : Nat} (pc : Word) (off : BitVec n) :
    BitVec.ofInt 64 (pc.toInt + off.toInt) = pc + off.signExtend 64 := by
  rw [BitVec.ofInt_add, BitVec.ofInt_toInt, BitVec.signExtend]

/-- Clearing bit 0 is rounding down to an even number (R151). -/
theorem and_not_one (v : Word) : v &&& ~~~1#64 = BitVec.ofNat 64 (v.toNat / 2 * 2) := by
  have hshift : v &&& ~~~1#64 = v >>> 1 <<< 1 := by
    rw [BitVec.shiftLeft_ushiftRight]
    rfl
  rw [hshift]
  apply BitVec.eq_of_toNat_eq
  simp [Nat.shiftRight_eq_div_pow, Nat.shiftLeft_eq]

/-- The target of JALR, as the exact number of claims (R151). -/
theorem jalrTarget_eq (s : State) (rs1 : Reg) (imm : BitVec 12) :
    jalrTarget s rs1 imm = BitVec.ofNat 64 ((BitVec.ofInt 64 ((s.x rs1).toInt + imm.toInt)).toNat / 2 * 2) := by
  rw [ofInt_base_add_imm, jalrTarget, and_not_one]

/-! ### JAL and JALR (R150, R151) -/

/-- A jump links the next instruction, goes to its target and changes nothing else. -/
theorem writesReg_jumpTo (s : State) (rd : Reg) (target : Word) : WritesReg s (jumpTo s rd target) rd (nextPc s) target := by
  rw [nextPc_eq]
  exact ⟨fun r => s.x_setX rd r _, rfl, s.csr_setX rd _, fun a => congrArg (Memory.get · a) (State.setX_mem ..),
    State.setX_priv .., State.setX_params .., State.setX_faultOut .., State.setX_debugTrap .., State.setX_instrOut ..⟩

/-- Settles O21: each word is the instruction's encoding (`decodeOfEncode`), and both jumps link and go to the exact target
(`writesReg_jumpTo`). -/
theorem jumpRules : Obligations.JumpRules := by
  refine ⟨fun rd off h => decodeOfEncode (.jal rd off) (offsetEven_of_toNat h), fun rd off s => ?_, fun rd rs1 imm f3 s => ?_⟩
  · rw [ofInt_pc_add_offset]
    exact ⟨_, rfl, writesReg_jumpTo s rd _⟩
  · rw [← jalrTarget_eq]
    exact ⟨decodeOfEncode (.jalr rd rs1 imm f3) rfl, _, rfl, writesReg_jumpTo s rd _⟩

/-! ### The branches (R152 to R157) -/

/-- The signed order of the model is that of the signed numbers (R13). -/
theorem ltSigned_iff {a b : Word} : ltSigned a b = true ↔ a.toInt < b.toInt := BitVec.slt_iff_toInt_lt

/-- The unsigned order of the model is that of the unsigned numbers (R13). -/
theorem ltUnsigned_iff {a b : Word} : ltUnsigned a b = true ↔ a.toNat < b.toNat := BitVec.ult_iff_lt

/-- A branch sets `pc`, by its condition, and changes nothing else. -/
theorem onlyPc_branchIf {s : State} {taken : Bool} {p : Prop} [Decidable p] (off : BitVec 13) (h : taken = true ↔ p) :
    OnlyPc s (branchIf taken off s) (if p then BitVec.ofInt 64 (s.pc.toInt + off.toInt) else nextPc s) := by
  rw [← if_congr h rfl rfl, ofInt_pc_add_offset]
  cases taken with
  | true => exact ⟨rfl, fun _ => rfl, fun _ => rfl, fun _ => rfl, rfl, rfl, rfl, rfl, rfl⟩
  | false => exact onlyPc_advance s

/-- Settles O22: each word is the instruction's encoding (`decodeOfEncode`), and each branch goes by its condition
(`onlyPc_branchIf`), which is one on exact numbers. -/
theorem branchRules : Obligations.BranchRules := by
  constructor
  · intro rs1 rs2 off h
    have heven : offsetEven off = true := offsetEven_of_toNat h
    exact ⟨decodeOfEncode (.beq rs1 rs2 off) heven, decodeOfEncode (.bne rs1 rs2 off) heven, decodeOfEncode (.blt rs1 rs2 off) heven,
      decodeOfEncode (.bge rs1 rs2 off) heven, decodeOfEncode (.bltu rs1 rs2 off) heven, decodeOfEncode (.bgeu rs1 rs2 off) heven⟩
  · intro rs1 rs2 off s
    have heq : s.x rs1 = s.x rs2 ↔ (s.x rs1).toNat = (s.x rs2).toNat := BitVec.toNat_inj.symm
    exact ⟨⟨_, rfl, onlyPc_branchIf off (beq_iff_eq.trans heq)⟩,
      ⟨_, rfl, onlyPc_branchIf off (bne_iff_ne.trans heq.not)⟩,
      ⟨_, rfl, onlyPc_branchIf off ltSigned_iff⟩,
      ⟨_, rfl, onlyPc_branchIf off (Bool.not_iff_not.trans (ltSigned_iff.not.trans not_lt))⟩,
      ⟨_, rfl, onlyPc_branchIf off ltUnsigned_iff⟩,
      ⟨_, rfl, onlyPc_branchIf off (Bool.not_iff_not.trans (ltUnsigned_iff.not.trans not_lt))⟩⟩

end Sys2Proof.Machine
end

section
/-! PROOF. The statements of 42_loads_stores (R171 to R181): the loads and the stores each share one shape, whose rule is proved once,
and a load's extension is the exact number of its bytes, signed or not. -/

namespace Sys2Proof.Machine

/-- Raising an exception, with nothing else done, is a raise in the sense of claims. -/
theorem raises_of_raise {s : State} {o : Host.Outcome State Fault Refusal} {e : Exception} (h : o = .next (s.raise e)) :
    Raises s o e := ⟨_, h, State.raise_instrOut .., traps_raise s e⟩

/-! ### Sign and zero extension (R13) -/

/-- Sign extension is the number of the low bits, balanced around 0. -/
theorem sext_eq_ofInt (n : Nat) (v : Word) : sext n v = BitVec.ofInt 64 (Int.bmod v.toNat (2 ^ n)) := by
  rw [sext, BitVec.signExtend, BitVec.toInt_setWidth]

/-- Zero extension keeps a value that fits. -/
theorem zext_of_lt {n : Nat} {v : Word} (h : v.toNat < 2 ^ n) : zext n v = v := by
  apply BitVec.eq_of_toNat_eq
  rw [zext, BitVec.toNat_setWidth, BitVec.toNat_setWidth, Nat.mod_eq_of_lt h, Nat.mod_eq_of_lt v.isLt]

/-! ### The loads (R171 to R177, R92) -/

/-- A load whose path raises an exception raises it, and leaves `rd`. -/
theorem loadWith_of_raised {s : State} {w : Width} {rs1 : Reg} {imm : BitVec 12} {e : Exception}
    (h : s.memRead (effectiveAddress s rs1 imm) w = .raised e) (ext : Word → Word) (rd : Reg) :
    loadWith w ext rd rs1 imm s = .next (s.raise e) := by
  rw [loadWith, h]

/-- The shared shape of the loads meets the rule of a load, where its extension is the exact number of claims on every value of `w`
bytes. -/
theorem loadRule_of_loadWith {i : Instr} {s : State} {rd rs1 : Reg} {imm : BitVec 12} {w : Width} {signed : Bool} {ext : Word → Word}
    (hi : exec i s = loadWith w ext rd rs1 imm s)
    (hext : ∀ v : Word, v.toNat < 2 ^ (8 * w.bytes) →
      ext v = BitVec.ofInt 64 (if signed then Int.bmod v.toNat (2 ^ (8 * w.bytes)) else v.toNat)) :
    LoadRule i s rd (effectiveAddress s rs1 imm) w signed := by
  refine ⟨fun ht => ?_, fun ht => ?_, fun pa wr x ht => ?_, fun pa wr x ht hb => ?_, fun pa wr x ht hb => ?_⟩
  · simp [hi, loadWith, State.memRead, ht]
  · exact raises_of_raise (hi.trans (loadWith_of_raised (by simp [State.memRead, ht]) ext rd))
  · exact raises_of_raise (hi.trans (loadWith_of_raised (by simp [State.memRead, ht]) ext rd))
  · have hmiss : s.physRead pa w = none := State.physRead_eq_none_iff.2 hb
    exact raises_of_raise (hi.trans (loadWith_of_raised (by simp [State.memRead, ht, hmiss]) ext rd))
  · have hread := hi.trans (loadWith_of_physRead ht (State.physRead_of_backed hb))
    rw [← Memory.toNat_readLE s w.bytes_le_eight, ← hext _ (Memory.readLE_lt ..)]
    exact computes_of_retire hread

/-- A load that sign-extends its `w` bytes. -/
theorem loadRule_of_sext {i : Instr} {s : State} {rd rs1 : Reg} {imm : BitVec 12} {w : Width}
    (hi : exec i s = loadWith w (sext (8 * w.bytes)) rd rs1 imm s) : LoadRule i s rd (effectiveAddress s rs1 imm) w true :=
  loadRule_of_loadWith hi fun v _ => sext_eq_ofInt _ v

/-- A load whose extension keeps every value of `w` bytes. -/
theorem loadRule_of_unsigned {i : Instr} {s : State} {rd rs1 : Reg} {imm : BitVec 12} {w : Width} {ext : Word → Word}
    (hi : exec i s = loadWith w ext rd rs1 imm s) (hext : ∀ v : Word, v.toNat < 2 ^ (8 * w.bytes) → ext v = v) :
    LoadRule i s rd (effectiveAddress s rs1 imm) w false :=
  loadRule_of_loadWith hi fun v hv => by simp [hext v hv]

/-- Settles O29: each word is the instruction's encoding (`decodeOfEncode`), and each load is the shared shape with its width and its
extension (`loadRule_of_loadWith`). -/
theorem loadRules : Obligations.LoadRules := by
  intro rd rs1 imm s ea
  have hea : ea = effectiveAddress s rs1 imm := ofInt_base_add_imm ..
  rw [hea]
  exact ⟨⟨decodeOfEncode (.lb rd rs1 imm) rfl, loadRule_of_sext rfl⟩,
    ⟨decodeOfEncode (.lh rd rs1 imm) rfl, loadRule_of_sext rfl⟩,
    ⟨decodeOfEncode (.lw rd rs1 imm) rfl, loadRule_of_sext rfl⟩,
    ⟨decodeOfEncode (.ld rd rs1 imm) rfl, loadRule_of_unsigned rfl fun _ _ => rfl⟩,
    ⟨decodeOfEncode (.lbu rd rs1 imm) rfl, loadRule_of_unsigned rfl fun _ => zext_of_lt⟩,
    ⟨decodeOfEncode (.lhu rd rs1 imm) rfl, loadRule_of_unsigned rfl fun _ => zext_of_lt⟩,
    ⟨decodeOfEncode (.lwu rd rs1 imm) rfl, loadRule_of_unsigned rfl fun _ => zext_of_lt⟩⟩

/-! ### The stores (R178 to R181, R93) -/

/-- A store whose path raises an exception raises it, and writes no byte. -/
theorem storeWith_of_raised {s : State} {w : Width} {rs1 rs2 : Reg} {imm : BitVec 12} {e : Exception}
    (h : s.memWrite (effectiveAddress s rs1 imm) w (s.x rs2) = .raised e) : storeWith w rs1 rs2 imm s = .next (s.raise e) := by
  rw [storeWith, h]

/-- The shared shape of the stores meets the rule of a store. -/
theorem storeRule_of_storeWith {i : Instr} {s : State} {rs1 rs2 : Reg} {imm : BitVec 12} {w : Width}
    (hi : exec i s = storeWith w rs1 rs2 imm s) : StoreRule i s (effectiveAddress s rs1 imm) w (s.x rs2) := by
  refine ⟨fun ht => ?_, fun ht => ?_, fun pa r x ht => ?_, fun pa r x ht hb => ?_, fun pa r x ht hb => ?_⟩
  · simp [hi, storeWith, State.memWrite, ht]
  · exact raises_of_raise (hi.trans (storeWith_of_raised (by simp [State.memWrite, ht])))
  · exact raises_of_raise (hi.trans (storeWith_of_raised (by simp [State.memWrite, ht])))
  · have hmiss : s.physWrite pa w (s.x rs2) = none := State.physWrite_eq_none_iff.2 hb
    exact raises_of_raise (hi.trans (storeWith_of_raised (by simp [State.memWrite, ht, hmiss])))
  · obtain ⟨t, hw, hstore⟩ := storeWith_of_backed (rs2 := rs2) ht hb
    obtain ⟨-, rfl⟩ := State.physWrite_some hw
    exact ⟨_, hi.trans hstore, (nextPc_eq s).symm, storesBytes_writeLE s _ _ _, fun _ => rfl, fun _ => rfl, rfl, rfl, rfl, rfl, rfl⟩

/-- Settles O30: each word is the instruction's encoding (`decodeOfEncode`), and each store is the shared shape with its width
(`storeRule_of_storeWith`). -/
theorem storeRules : Obligations.StoreRules := by
  intro rs1 rs2 imm s ea
  have hea : ea = effectiveAddress s rs1 imm := ofInt_base_add_imm ..
  rw [hea]
  exact ⟨⟨decodeOfEncode (.sb rs1 rs2 imm) rfl, storeRule_of_storeWith rfl⟩,
    ⟨decodeOfEncode (.sh rs1 rs2 imm) rfl, storeRule_of_storeWith rfl⟩,
    ⟨decodeOfEncode (.sw rs1 rs2 imm) rfl, storeRule_of_storeWith rfl⟩,
    ⟨decodeOfEncode (.sd rs1 rs2 imm) rfl, storeRule_of_storeWith rfl⟩⟩

end Sys2Proof.Machine
end

section
/-! PROOF. The statements of 43_op_imm (R190 to R202): every instruction retires a value, and each operation is the exact number of
claims narrowed to 64 bits, in the "-32" forms the balanced number of 32 bits. -/

namespace Sys2Proof

/-! ### The words of OP-IMM and OP-IMM-32 (R126)

In the three lemmas about illegal words, `simp` takes the decoder's last arm because the hypotheses on `funct6` or `funct7`, which it
finds in the context, exclude the arms before it. -/

theorem decode_of_opImm {w : InstrWord} (hop : opcodeOf w = 0b0010011#7) : decode w = decodeOpImm w := by simp [decode, hop]

theorem decode_of_opImm32 {w : InstrWord} (hop : opcodeOf w = 0b0011011#7) : decode w = decodeOpImm32 w := by simp [decode, hop]

/-- SLLI has one legal `funct6` (R196). -/
theorem decode_error_of_slli_funct6 {w : InstrWord} (hop : opcodeOf w = 0b0010011#7) (h3 : funct3Of w = 0b001#3)
    (h0 : funct6Of w ≠ 0b000000#6) : decode w = .error .unmatchedFunct7 := by
  simp [decode_of_opImm hop, decodeOpImm, h3]

/-- SRLI and SRAI have one legal `funct6` each (R197, R198). -/
theorem decode_error_of_shiftRight_funct6 {w : InstrWord} (hop : opcodeOf w = 0b0010011#7) (h3 : funct3Of w = 0b101#3)
    (h0 : funct6Of w ≠ 0b000000#6) (h16 : funct6Of w ≠ 0b010000#6) : decode w = .error .unmatchedFunct7 := by
  simp [decode_of_opImm hop, decodeOpImm, h3]

/-- SLLIW has one legal `funct7` (R200). -/
theorem decode_error_of_slliw_funct7 {w : InstrWord} (hop : opcodeOf w = 0b0011011#7) (h3 : funct3Of w = 0b001#3)
    (h0 : funct7Of w ≠ 0b0000000#7) : decode w = .error .unmatchedFunct7 := by
  simp [decode_of_opImm32 hop, decodeOpImm32, h3]

end Sys2Proof

namespace Sys2Proof.Machine

/-- An instruction that retires a value computes what the value is equal to. -/
theorem computes_of_retire_eq {i : Instr} {s : State} {rd : Reg} {v v' : Word} (h : exec i s = .next (s.retire rd v)) (hv : v = v') :
    Computes i s rd v' := hv ▸ computes_of_retire h

/-! ### The immediate (R118, R192) -/

/-- Sign extension keeps the number of the immediate. -/
theorem toInt_imm12 (imm : BitVec 12) : (imm12 imm).toInt = imm.toInt := BitVec.toInt_signExtend_of_le (by decide)

/-- As an unsigned number a negative immediate is very large (R192). -/
theorem toNat_imm12 (imm : BitVec 12) : ((imm12 imm).toNat : Int) = imm.toInt % 2 ^ 64 := by
  rw [imm12, BitVec.signExtend, BitVec.toNat_ofInt, Int.toNat_of_nonneg (Int.emod_nonneg _ (by decide))]
  rfl

/-! ### Comparisons (R203) -/

/-- The word of a comparison is the 1 or 0 of claims. -/
theorem boolWord_eq_ite {b : Bool} {p : Prop} [Decidable p] (h : b = true ↔ p) : boolWord b = if p then 1#64 else 0#64 :=
  if_congr h rfl rfl

/-- SLTIU's order, with the immediate as claims have it (R192). -/
theorem ltUnsigned_imm12_iff {a : Word} {imm : BitVec 12} :
    ltUnsigned a (imm12 imm) = true ↔ (a.toNat : Int) < imm.toInt % 2 ^ 64 := by
  rw [ltUnsigned_iff, ← toNat_imm12, Int.ofNat_lt]

/-! ### Shifts (R13) -/

/-- A left shift multiplies and drops what does not fit. -/
theorem shiftLeft_eq_ofNat {w : Nat} (x : BitVec w) (n : Nat) : x <<< n = BitVec.ofNat w (x.toNat * 2 ^ n) := by
  apply BitVec.eq_of_toNat_eq
  rw [BitVec.toNat_shiftLeft, Nat.shiftLeft_eq, BitVec.toNat_ofNat]

/-- A logical right shift divides the unsigned number. -/
theorem ushiftRight_eq_ofNat {w : Nat} (x : BitVec w) (n : Nat) : x >>> n = BitVec.ofNat w (x.toNat / 2 ^ n) := by
  rw [← Nat.shiftRight_eq_div_pow, ← BitVec.toNat_ushiftRight, BitVec.ofNat_toNat, BitVec.setWidth_eq]

/-- An arithmetic right shift divides the signed number, rounding down. -/
theorem toInt_sshiftRight_eq_div {w : Nat} (x : BitVec w) (n : Nat) : (x.sshiftRight n).toInt = x.toInt / 2 ^ n := by
  rw [BitVec.toInt_sshiftRight, Int.shiftRight_eq_div_pow, Nat.cast_pow, Nat.cast_ofNat]

theorem shiftRightS64_eq_ofInt (a : Word) (n : Nat) : shiftRightS64 a n = BitVec.ofInt 64 (a.toInt / 2 ^ n) := by
  rw [← toInt_sshiftRight_eq_div, BitVec.ofInt_toInt, shiftRightS64]

/-! ### 32-bit results (R203) -/

/-- A sign-extended 32-bit result has the result's signed number. -/
theorem sext32_eq_ofInt (v : BitVec 32) : sext32 v = BitVec.ofInt 64 v.toInt := rfl

/-- The sign extension of the low 32 bits of a number is the number balanced around 0. -/
theorem sext32_ofInt (i : Int) : sext32 (BitVec.ofInt 32 i) = BitVec.ofInt 64 (Int.bmod i (2 ^ 32)) := by
  rw [sext32_eq_ofInt, BitVec.toInt_ofInt]

theorem toInt_low32 (a : Word) : (low32 a).toInt = Int.bmod a.toNat (2 ^ 32) := BitVec.toInt_setWidth a

theorem toNat_low32 (a : Word) : (low32 a).toNat = a.toNat % 2 ^ 32 := BitVec.toNat_setWidth 32 a

/-- The low 32 bits depend on the number modulo 2^32 alone. -/
theorem low32_ofInt (i : Int) : low32 (BitVec.ofInt 64 i) = BitVec.ofInt 32 i := by
  apply BitVec.eq_of_toNat_eq
  rw [toNat_low32, BitVec.toNat_ofInt, BitVec.toNat_ofInt]
  omega

/-- The 32-bit sum of R199, also of ADDW. -/
theorem addW_eq_ofInt (a b : Word) : addW a b = BitVec.ofInt 64 (Int.bmod (a.toInt + b.toInt) (2 ^ 32)) := by
  rw [← sext32_ofInt, ← low32_ofInt, BitVec.ofInt_add, BitVec.ofInt_toInt, BitVec.ofInt_toInt, addW]

/-- The 32-bit left shift of R200: what is above bit 31 before the shift is not in the result. -/
theorem shiftLeftW_eq_ofInt (a : Word) (n : Nat) :
    shiftLeftW a n = BitVec.ofInt 64 (Int.bmod (a.toNat * 2 ^ n) (2 ^ 32)) := by
  have hlow : low32 a <<< n = BitVec.ofInt 32 (a.toNat * 2 ^ n : Nat) := by
    rw [low32, ← BitVec.setWidth_shiftLeft_of_le (by decide), shiftLeft_eq_ofNat, BitVec.ofInt_natCast,
      BitVec.setWidth_ofNat_of_le (by decide)]
  rw [shiftLeftW, hlow, sext32_ofInt, Nat.cast_mul, Nat.cast_pow, Nat.cast_ofNat]

/-- The 32-bit logical right shift of R201. -/
theorem shiftRightUW_eq_ofInt (a : Word) (n : Nat) :
    shiftRightUW a n = BitVec.ofInt 64 (Int.bmod (a.toNat % 2 ^ 32 / 2 ^ n : Nat) (2 ^ 32)) := by
  rw [shiftRightUW, ushiftRight_eq_ofNat, toNat_low32, ← BitVec.ofInt_natCast, sext32_ofInt]

/-- The 32-bit arithmetic right shift of R202. -/
theorem shiftRightSW_eq_ofInt (a : Word) (n : Nat) :
    shiftRightSW a n = BitVec.ofInt 64 (Int.bmod a.toNat (2 ^ 32) / 2 ^ n) := by
  rw [shiftRightSW, sext32_eq_ofInt, toInt_sshiftRight_eq_div, toInt_low32]

/-! ### OP-IMM (R190 to R198) -/

/-- Settles O23: each word is the instruction's encoding (`decodeOfEncode`), and each value retired is the exact one of claims. -/
theorem opImmRules : Obligations.OpImmRules := by
  refine ⟨fun rd rs1 imm s => ?_, fun rd rs1 shamt s => ?_, fun w hop h3 h0 => ⟨_, decode_error_of_slli_funct6 hop h3 h0⟩,
    fun w hop h3 h0 h16 => ⟨_, decode_error_of_shiftRight_funct6 hop h3 h0 h16⟩⟩
  · have hslt : ltSigned (s.x rs1) (imm12 imm) = true ↔ (s.x rs1).toInt < imm.toInt := toInt_imm12 imm ▸ ltSigned_iff
    exact ⟨⟨decodeOfEncode (.addi rd rs1 imm) rfl, computes_of_retire_eq rfl (ofInt_base_add_imm ..).symm⟩,
      ⟨decodeOfEncode (.slti rd rs1 imm) rfl, computes_of_retire_eq rfl (boolWord_eq_ite hslt)⟩,
      ⟨decodeOfEncode (.sltiu rd rs1 imm) rfl, computes_of_retire_eq rfl (boolWord_eq_ite ltUnsigned_imm12_iff)⟩,
      ⟨decodeOfEncode (.xori rd rs1 imm) rfl, computes_of_retire rfl⟩,
      ⟨decodeOfEncode (.ori rd rs1 imm) rfl, computes_of_retire rfl⟩,
      ⟨decodeOfEncode (.andi rd rs1 imm) rfl, computes_of_retire rfl⟩⟩
  · exact ⟨⟨decodeOfEncode (.slli rd rs1 shamt) rfl, computes_of_retire_eq rfl (shiftLeft_eq_ofNat ..)⟩,
      ⟨decodeOfEncode (.srli rd rs1 shamt) rfl, computes_of_retire_eq rfl (ushiftRight_eq_ofNat ..)⟩,
      ⟨decodeOfEncode (.srai rd rs1 shamt) rfl, computes_of_retire_eq rfl (shiftRightS64_eq_ofInt ..)⟩⟩

/-! ### OP-IMM-32 (R199 to R202) -/

/-- Settles O24: each word is the instruction's encoding (`decodeOfEncode`), and each value retired is the exact 32-bit one of
claims. -/
theorem opImm32Rules : Obligations.OpImm32Rules := by
  refine ⟨fun rd rs1 imm s => ?_, fun rd rs1 shamt s => ?_, fun w hop h3 h7 => ⟨_, decode_error_of_slliw_funct7 hop h3 ?_⟩⟩
  · rw [← toInt_imm12]
    exact ⟨decodeOfEncode (.addiw rd rs1 imm) rfl, computes_of_retire_eq rfl (addW_eq_ofInt ..)⟩
  · exact ⟨⟨decodeOfEncode (.slliw rd rs1 shamt) rfl, computes_of_retire_eq rfl (shiftLeftW_eq_ofInt ..)⟩,
      ⟨decodeOfEncode (.srliw rd rs1 shamt) rfl, computes_of_retire_eq rfl (shiftRightUW_eq_ofInt ..)⟩,
      ⟨decodeOfEncode (.sraiw rd rs1 shamt) rfl, computes_of_retire_eq rfl (shiftRightSW_eq_ofInt ..)⟩⟩
  · rw [h7]
    decide

end Sys2Proof.Machine
end

section
/-! PROOF. The statements of 44_op (R210 to R224): the operations are those of OP-IMM and OP-IMM-32, with the differences added, and a
shift amount is the number in `x[rs2]` modulo the width. -/

namespace Sys2Proof.Machine

/-! ### Shift amounts (R203, R212, R222) -/

/-- The low six bits are the remainder by 64. -/
theorem shiftAmount64_eq_mod (v : Word) : shiftAmount64 v = v.toNat % 64 := Nat.and_two_pow_sub_one_eq_mod v.toNat 6

/-- The low five bits are the remainder by 32. -/
theorem shiftAmount32_eq_mod (v : Word) : shiftAmount32 v = v.toNat % 32 := Nat.and_two_pow_sub_one_eq_mod v.toNat 5

/-! ### Sums and differences (R203) -/

/-- The exact sum narrows to the wrapping one. -/
theorem ofInt_toInt_add (a b : Word) : BitVec.ofInt 64 (a.toInt + b.toInt) = a + b := by
  rw [BitVec.ofInt_add, BitVec.ofInt_toInt, BitVec.ofInt_toInt]

/-- The exact difference narrows to the wrapping one. -/
theorem ofInt_toInt_sub (a b : Word) : BitVec.ofInt 64 (a.toInt - b.toInt) = a - b := by
  apply BitVec.eq_of_toInt_eq
  rw [BitVec.toInt_ofInt, BitVec.toInt_sub]

/-- The 32-bit difference of R221. -/
theorem subW_eq_ofInt (a b : Word) : subW a b = BitVec.ofInt 64 (Int.bmod (a.toInt - b.toInt) (2 ^ 32)) := by
  rw [← sext32_ofInt, ← low32_ofInt, ofInt_toInt_sub, subW]

/-! ### OP (R210 to R219) -/

/-- Settles O25: each word is the instruction's encoding (`decodeOfEncode`), and each value retired is the exact one of claims. -/
theorem opRules : Obligations.OpRules := by
  intro rd rs1 rs2 s
  rw [← shiftAmount64_eq_mod]
  exact ⟨⟨decodeOfEncode (.add rd rs1 rs2) rfl, computes_of_retire_eq rfl (ofInt_toInt_add ..).symm⟩,
    ⟨decodeOfEncode (.sub rd rs1 rs2) rfl, computes_of_retire_eq rfl (ofInt_toInt_sub ..).symm⟩,
    ⟨decodeOfEncode (.sll rd rs1 rs2) rfl, computes_of_retire_eq rfl (shiftLeft_eq_ofNat ..)⟩,
    ⟨decodeOfEncode (.slt rd rs1 rs2) rfl, computes_of_retire_eq rfl (boolWord_eq_ite ltSigned_iff)⟩,
    ⟨decodeOfEncode (.sltu rd rs1 rs2) rfl, computes_of_retire_eq rfl (boolWord_eq_ite ltUnsigned_iff)⟩,
    ⟨decodeOfEncode (.xor rd rs1 rs2) rfl, computes_of_retire rfl⟩,
    ⟨decodeOfEncode (.srl rd rs1 rs2) rfl, computes_of_retire_eq rfl (ushiftRight_eq_ofNat ..)⟩,
    ⟨decodeOfEncode (.sra rd rs1 rs2) rfl, computes_of_retire_eq rfl (shiftRightS64_eq_ofInt ..)⟩,
    ⟨decodeOfEncode (.or rd rs1 rs2) rfl, computes_of_retire rfl⟩,
    ⟨decodeOfEncode (.and rd rs1 rs2) rfl, computes_of_retire rfl⟩⟩

/-! ### OP-32 (R220 to R224) -/

/-- Settles O26: each word is the instruction's encoding (`decodeOfEncode`), and each value retired is the exact 32-bit one of
claims. -/
theorem op32Rules : Obligations.Op32Rules := by
  intro rd rs1 rs2 s
  rw [← shiftAmount32_eq_mod]
  exact ⟨⟨decodeOfEncode (.addw rd rs1 rs2) rfl, computes_of_retire_eq rfl (addW_eq_ofInt ..)⟩,
    ⟨decodeOfEncode (.subw rd rs1 rs2) rfl, computes_of_retire_eq rfl (subW_eq_ofInt ..)⟩,
    ⟨decodeOfEncode (.sllw rd rs1 rs2) rfl, computes_of_retire_eq rfl (shiftLeftW_eq_ofInt ..)⟩,
    ⟨decodeOfEncode (.srlw rd rs1 rs2) rfl, computes_of_retire_eq rfl (shiftRightUW_eq_ofInt ..)⟩,
    ⟨decodeOfEncode (.sraw rd rs1 rs2) rfl, computes_of_retire_eq rfl (shiftRightSW_eq_ofInt ..)⟩⟩

end Sys2Proof.Machine
end

section
/-! PROOF. The statement of 45_fence (R230): the opcode alone decides that a word is FENCE, and FENCE is one advance of `pc`. -/

namespace Sys2Proof.Machine

theorem decode_of_miscMem {w : InstrWord} (hop : opcodeOf w = 0b0001111#7) : decode w = .ok (decodeFence w) := by simp [decode, hop]

/-- No field of FENCE has a part in what it does (R96, R230). -/
theorem exec_fence (fm pred succ : BitVec 4) (rs1 : Reg) (f3 : BitVec 3) (rd : Reg) (s : State) :
    exec (.fence fm pred succ rs1 f3 rd) s = .next s.advance := rfl

/-- Settles O27: the opcode row (`decode_of_miscMem`), then the frame of an advance (`onlyPc_advance`). -/
theorem fenceRule : Obligations.FenceRule := by
  constructor
  · intro w hop
    exact ⟨_, _, _, _, _, _, decode_of_miscMem hop⟩
  · intro fm pred succ rs1 f3 rd s
    exact ⟨s.advance, exec_fence fm pred succ rs1 f3 rd s, onlyPc_advance s⟩

end Sys2Proof.Machine
end

section
/-! PROOF. The statements of 46_system (R235 to R244): ECALL and EBREAK raise an exception and do nothing else, MRET is the return from
a trap read field by field, and the CSR instructions share one shape, whose rule is proved once. -/

namespace Sys2Proof

/-- SYSTEM has no instruction with `funct3 = 100` (R126). -/
theorem decode_error_of_system_funct3 {w : InstrWord} (hop : opcodeOf w = 0b1110011#7) (h3 : funct3Of w = 0b100#3) :
    decode w = .error .unmatchedFunct3 := by
  simp [decode_of_system hop, decodeSystem, h3]

end Sys2Proof

namespace Sys2Proof.Machine

/-! ### The number of a mode (R27) -/

/-- No two modes have one number. -/
theorem modeNumber_injective : Function.Injective modeNumber :=
  Function.LeftInverse.injective (g := fun n => decodeMode (BitVec.ofNat 2 n)) fun m => by cases m <;> rfl

/-- A mode's number is its encoding. -/
theorem modeNumber_decodeMode : ∀ b : BitVec 2, modeNumber (decodeMode b) = b.toNat := by decide

/-! ### ECALL and EBREAK (R235, R236) -/

/-- ECALL raises the environment call of whichever mode has the current mode's number. -/
theorem raises_ecall {s : State} {m : PrivMode} (h : modeNumber s.priv = modeNumber m) :
    Raises s (exec .ecall s) (environmentCall m) := by
  obtain rfl := modeNumber_injective h
  exact raises_of_raise rfl

/-- Settles O32: one rule for the four modes (`raises_ecall`). -/
theorem ecallRule : Obligations.EcallRule :=
  ⟨decodeOfEncode .ecall rfl, fun _ => ⟨raises_ecall (m := .user), raises_ecall (m := .supervisor), raises_ecall (m := .hypervisor),
    raises_ecall (m := .machine)⟩⟩

/-- Settles O33: EBREAK raises Breakpoint, and a raised exception sets `debug_trap` where it is a breakpoint (`State.raise_debugTrap`). -/
theorem ebreakRule : Obligations.EbreakRule :=
  ⟨decodeOfEncode .ebreak rfl, fun s => ⟨raises_of_raise rfl, _, rfl, State.raise_debugTrap s .breakpoint⟩⟩

/-! ### MRET (R237) -/

/-- `mstatus` after MRET, bit by bit: MIE takes MPIE. -/
theorem getLsbD_mstatusOnReturn (v : Word) {i : Nat} (hi : i < 64) :
    (mstatusOnReturn v).getLsbD i = if i = 3 then v.getLsbD 7 else v.getLsbD i := by
  rw [mstatusOnReturn, getLsbD_setField _ _ _ _ hi]
  by_cases h3 : i = 3
  · simp [h3, mstatusMpie]
  · rw [if_neg h3, if_neg (by omega)]

/-- The mode that MRET enters is the one whose number is in MPP. -/
theorem modeNumber_mstatusMpp (v : Word) : modeNumber (decodeMode (mstatusMpp v)) = v.toNat / 2 ^ 11 % 4 := by
  rw [modeNumber_decodeMode, mstatusMpp, BitVec.extractLsb'_toNat, Nat.shiftRight_eq_div_pow]

/-- Settles O34: MRET is `State.returnFromTrap`; `mstatus` and the mode by the two lemmas above, the other CSRs by
`State.csr_returnFromTrap_other`. -/
theorem mretRule : Obligations.MretRule :=
  ⟨decodeOfEncode .mret rfl, fun s => ⟨s.returnFromTrap, rfl, rfl, modeNumber_mstatusMpp s.mstatus,
    fun _ hi => getLsbD_mstatusOnReturn s.mstatus hi, fun _ ha => s.csr_returnFromTrap_other ha, s.x_returnFromTrap, fun _ => rfl,
    rfl, rfl, rfl, rfl⟩⟩

/-! ### The CSR instructions (R238 to R244) -/

/-- The shared shape of the CSR instructions updates the CSR in the sense of claims: the write (`State.csr_setCsr`), then the retiring of
the old value. -/
theorem updatesCsr_of_csrUpdate {i : Instr} {s : State} {rd : Reg} {a : CsrAddr} {new : Word}
    (h : exec i s = .next (csrUpdate s rd a new)) : UpdatesCsr i s rd a new := by
  obtain ⟨hx, hpc, hcsr, hmem, hpriv, hparams, hfault, hdebug, hinstr⟩ := writesReg_retire (s.setCsr a new) rd (s.csr a)
  refine ⟨_, h, ?_, fun r => ?_, fun b => ?_, fun b => ?_, hpriv.trans (State.setCsr_priv ..), hparams.trans (State.setCsr_params ..),
    hfault.trans (State.setCsr_faultOut ..), hdebug.trans (State.setCsr_debugTrap ..), hinstr.trans (State.setCsr_instrOut ..)⟩
  · exact hpc.trans (by rw [nextPc, nextPc, State.setCsr_pc])
  · exact (hx r).trans (by rw [State.x_setCsr])
  · exact (hcsr b).trans ((s.csr_setCsr a b new).trans (if_congr (and_congr_right fun hb => by rw [hb]) rfl rfl))
  · exact (hmem b).trans (congrArg (Memory.get · b) (State.setCsr_mem ..))

/-- A 5-bit immediate as the exact number of claims (R123). -/
theorem uimmWord_eq_ofNat (uimm : BitVec 5) : uimmWord uimm = BitVec.ofNat 64 uimm.toNat := (BitVec.ofNat_toNat ..).symm

/-- Settles O35: each word is the instruction's encoding (`decodeOfEncode`), each instruction the shared shape with its new value
(`updatesCsr_of_csrUpdate`), and `funct3 = 100` is illegal (`decode_error_of_system_funct3`). -/
theorem csrRules : Obligations.CsrRules := by
  refine ⟨fun rd a rs1 s => ?_, fun rd a uimm s => ?_, fun w hop h3 => ⟨_, decode_error_of_system_funct3 hop h3⟩⟩
  · exact ⟨⟨decodeOfEncode (.csrrw rd a rs1) rfl, updatesCsr_of_csrUpdate rfl⟩,
      ⟨decodeOfEncode (.csrrs rd a rs1) rfl, updatesCsr_of_csrUpdate rfl⟩,
      ⟨decodeOfEncode (.csrrc rd a rs1) rfl, updatesCsr_of_csrUpdate rfl⟩⟩
  · rw [← uimmWord_eq_ofNat]
    exact ⟨⟨decodeOfEncode (.csrrwi rd a uimm) rfl, updatesCsr_of_csrUpdate rfl⟩,
      ⟨decodeOfEncode (.csrrsi rd a uimm) rfl, updatesCsr_of_csrUpdate rfl⟩,
      ⟨decodeOfEncode (.csrrci rd a uimm) rfl, updatesCsr_of_csrUpdate rfl⟩⟩

end Sys2Proof.Machine
end

section
/-! PROOF. The statements of 60_exceptions: trap entry and its gate (R270 to R272), what a step raises and what it leaves unchanged then
(R260 to R264, R273, R274), the return (R277), nested traps (R278), and the mode (R281, R282) and `debug_trap` (R284). -/

namespace Sys2Proof.Machine

/-! ### Trap entry (R262, R263, R270 to R272) -/

/-- Settles O36: raising an exception traps (`traps_raise`). -/
theorem trapEntryRule : Obligations.TrapEntryRule := fun s e => ⟨traps_raise s e, State.raise_instrOut s e⟩

/-- Where the gate lets the trap in, in the sense of claims, raising is entering the trap with the outputs set. -/
theorem State.raise_of_notGated {s : State} (h : NotGated s) (e : Exception) : s.raise e = (s.report e).enterTrap e :=
  State.raise_open (notGated_iff.1 h) e

/-- Where the gate holds the trap, raising only sets the outputs. -/
theorem State.raise_of_gated {s : State} (h : ¬NotGated s) (e : Exception) : s.raise e = s.report e := by
  obtain ⟨hobserved, hopen⟩ := not_or.1 (mt notGated_iff.2 h)
  exact State.raise_closed (by simpa using hobserved) (by simpa using hopen) e

theorem takesTrap_raise {s : State} (h : NotGated s) (e : Exception) : TakesTrap s (s.raise e) e := (traps_raise s e).1 h

/-- What a trap that is let in leaves in `mcause` and `mtval`. -/
theorem cause_and_value_raise {s : State} (h : NotGated s) (e : Exception) :
    (s.raise e).csr 0x342#12 = e.code ∧ (s.raise e).csr 0x343#12 = e.trapValue := by
  obtain ⟨-, hcause, hvalue, -⟩ := takesTrap_raise h e
  exact ⟨hcause, hvalue⟩

/-- Settles O37: the code and the trap value of each kind, one by one. -/
theorem causeAndValueOfEveryKind : Obligations.CauseAndValueOfEveryKind := by
  intro s a h
  have hraise := cause_and_value_raise h
  exact ⟨hraise _, hraise _, hraise _, hraise _, hraise _, hraise _, hraise _, hraise _, hraise _, hraise _, hraise _, (hraise _).1,
    (hraise _).1, (hraise _).1, (hraise _).1⟩

/-! ### The return and a second trap (R277, R278) -/

/-- Trap entry saves the mode in MPP. -/
theorem mstatusMpp_mstatusOnTrap (v : Word) (m : PrivMode) : mstatusMpp (mstatusOnTrap v m) = encodeMode m := by
  apply BitVec.eq_of_getLsbD_eq
  intro i hi
  have hbit : (mstatusMpp (mstatusOnTrap v m)).getLsbD i = (mstatusOnTrap v m).getLsbD (11 + i) := by
    rw [mstatusMpp, BitVec.getLsbD_extractLsb', decide_eq_true hi, Bool.true_and]
  rw [hbit, getLsbD_mstatusOnTrap _ _ (by omega), getLsbD_encodeMode]
  obtain rfl | rfl : i = 0 ∨ i = 1 := by omega
  · rfl
  · rfl

/-- Settles O41: `mepc` and MPP hold the `pc` and the mode, and MIE comes back by way of MPIE. -/
theorem trapAndReturn : Obligations.TrapAndReturn := by
  intro s e h
  refine ⟨(s.raise e).returnFromTrap, rfl, ?_⟩
  rw [State.raise_of_notGated h]
  refine ⟨rfl, ?_, ?_, fun _ => rfl, fun _ => rfl⟩
  · rw [State.returnFromTrap_priv, State.enterTrap_mstatus, mstatusMpp_mstatusOnTrap, decodeMode_encodeMode, State.report_priv]
  · exact (getLsbD_mstatusOnReturn _ (by decide)).trans (getLsbD_mstatusOnTrap _ _ (by decide))

/-- Settles O42: the second trap is taken from the target of the first; a fetch that fails there traps to the target again. -/
theorem nestedTraps : Obligations.NestedTraps := by
  refine ⟨fun s e f hgate => ?_, fun s hl hgate hpc hf => ?_⟩
  · obtain ⟨-, -, -, hmstatus, -, htarget, -⟩ := takesTrap_raise (.inl hgate) e
    have hgate' : (s.raise e).params.trapGateObserved = false := by rw [State.raise_params, hgate]
    obtain ⟨hmepc, hmcause, -, hmstatus', -⟩ := takesTrap_raise (.inl hgate') f
    exact ⟨hmepc.trans htarget, hmcause, (hmstatus' 7 (by decide)).trans (hmstatus 3 (by decide))⟩
  · obtain ⟨hmepc, hmcause, hmtval, -, -, htarget, -⟩ :=
      takesTrap_raise (s := s.beginStep) (.inl hgate) (.instructionAccessFault s.pc)
    exact ⟨_, step_of_noFetch ((legalRegions_iff _).2 hl) hf, htarget.trans hpc.symm, hmepc, hmcause, hmtval⟩

/-! ### The step (R12, R260) -/

/-- A step at a word that decodes runs its instruction. -/
theorem step_of_decode {s : State} {w : InstrWord} {i : Instr} (hl : legalRegions s.params.regions = true) (hf : s.fetch = some w)
    (hd : decode w = .ok i) : step s = exec i (s.beginStep.latchInstr w) := by
  have hb : s.beginStep.fetch = some w := hf
  unfold step runCycle fetchAndRun runWord
  rw [if_pos hl, hb]
  simp only [hd]

/-- Settles O43: the state in which the word executes is `s.beginStep.latchInstr w` (`step_of_decode`). -/
theorem stepRunsDecodedInstruction : Obligations.StepRunsDecodedInstruction := fun s w _ hl hf hd =>
  ⟨wellFormed_of_decode hd, s.beginStep.latchInstr w,
    ⟨rfl, fun _ => rfl, fun _ => rfl, fun _ => rfl, rfl, rfl, rfl, rfl, rfl⟩, step_of_decode ((legalRegions_iff _).2 hl) hf hd⟩

/-! ### What a step raises (R261 to R264, R273, R274) -/

/-- Why a step raises an exception: the fetch failed, the word is illegal, or its instruction raises it (R260, R264). -/
inductive StepRaises (s : State) : Exception → Prop
  | noFetch (hf : s.fetch = none) : StepRaises s (.instructionAccessFault s.pc)
  | illegalWord {w : InstrWord} {e : DecodeError} (hf : s.fetch = some w) (hd : decode w = .error e) : StepRaises s .illegalInstruction
  | instr {i : Instr} {e : Exception} (hf : s.fetch = some (encode i)) (he : RaisedBy i s e) : StepRaises s e

theorem StepRaises.isRaised {s : State} {e : Exception} (h : StepRaises s e) : e.isRaised = true := by
  cases h with
  | noFetch | illegalWord => rfl
  | instr _ he => exact he.isRaised

/-- What an instruction raises does not depend on the outputs. -/
theorem RaisedBy.of_started {i : Instr} {s : State} {w : InstrWord} {e : Exception} (h : RaisedBy i (s.beginStep.latchInstr w) e) :
    RaisedBy i s e := by
  cases e <;> exact h

/-- An effect raises an exception, or leaves the two outputs that report one. -/
theorem Effect.raises_or_silent {i : Instr} {s t : State} (h : Effect i s (.next t)) :
    (∃ e, RaisedBy i s e ∧ t = s.raise e) ∨ (t.faultOut = s.faultOut ∧ t.debugTrap = s.debugTrap) := by
  cases h with
  | raise e he => exact .inl ⟨e, he, rfl⟩
  | retire | jump | csr => exact .inr (by simp [jumpTo, csrUpdate])
  | onlyPc | store | ret => exact .inr ⟨rfl, rfl⟩

/-- A step raises one exception, from the state that its work starts in, or reports none. -/
theorem step_raises_or_silent {s t : State} (h : step s = .next t) :
    (∃ w e, StepRaises s e ∧ t = (s.beginStep.latchInstr w).raise e) ∨ (t.faultOut = none ∧ t.debugTrap = false) := by
  obtain ⟨-, ⟨hf, rfl⟩ | ⟨w, e, hf, hd, rfl⟩ | ⟨w, i, hf, hd, hx⟩⟩ := step_next h
  · exact .inl ⟨s.instrOut, _, .noFetch hf, rfl⟩
  · exact .inl ⟨w, _, .illegalWord hf hd, rfl⟩
  · obtain ⟨e, he, rfl⟩ | hsilent := (hx ▸ exec_effect i _ : Effect i (s.beginStep.latchInstr w) (.next t)).raises_or_silent
    · exact .inl ⟨w, e, .instr (by rw [hf, encode_of_decode hd]) he.of_started, rfl⟩
    · exact .inr hsilent

/-- The exception in `fault_out` is the one that the step raised. -/
theorem step_raises_of_faultOut {s t : State} {e : Exception} (h : step s = .next t) (he : t.faultOut = some e) :
    StepRaises s e ∧ ∃ w, t = (s.beginStep.latchInstr w).raise e := by
  obtain ⟨w, e', hr, rfl⟩ | ⟨hnone, -⟩ := step_raises_or_silent h
  · obtain rfl : e' = e := by simpa using he
    exact ⟨hr, w, rfl⟩
  · simp [hnone] at he

/-- Settles O40: raising an exception traps (`traps_raise`), and the step raised the one in `fault_out` before it did anything else. -/
theorem trapsArePrecise : Obligations.TrapsArePrecise := by
  intro s t e h he
  obtain ⟨-, w, rfl⟩ := step_raises_of_faultOut h he
  exact traps_raise (s.beginStep.latchInstr w) e

/-- The codes of the kinds that the hardware raises (R262). -/
theorem Exception.code_of_isRaised {e : Exception} (h : e.isRaised = true) :
    e.code.toNat ∈ [1, 2, 3, 5, 7, 8, 9, 10, 11, 13, 15] := by
  cases e with
  | instructionAddressMisaligned | loadAddressMisaligned | storeAddressMisaligned | instructionPageFault => cases h
  | _ => simp [Exception.code]

/-- Settles O39: the trap taken writes the code (`trapsArePrecise`) of a kind that the hardware raises. -/
theorem trapCausesAreSmall : Obligations.TrapCausesAreSmall := by
  intro s t hgate h hne
  obtain ⟨e, he⟩ := Option.ne_none_iff_exists'.1 hne
  obtain ⟨-, hcause, -⟩ := (trapsArePrecise s t e h he).1 hgate
  rw [hcause]
  exact Exception.code_of_isRaised (step_raises_of_faultOut h he).1.isRaised

/-! ### Which step raises which fault (R264) -/

theorem StepRaises.accessFault {s : State} {a : Word} (h : StepRaises s (.instructionAccessFault a)) : s.fetch = none ∧ a = s.pc := by
  cases h with
  | noFetch hf => exact ⟨hf, rfl⟩
  | instr _ he => exact he.elim

theorem StepRaises.illegal {s : State} (h : StepRaises s .illegalInstruction) : ∃ w e, s.fetch = some w ∧ decode w = .error e := by
  cases h with
  | illegalWord hf hd => exact ⟨_, _, hf, hd⟩
  | instr _ he => exact he.elim

/-- Every other kind is an instruction's. -/
theorem StepRaises.of_instr {s : State} {e : Exception} (h : StepRaises s e) (ha : ∀ a, e ≠ .instructionAccessFault a)
    (hi : e ≠ .illegalInstruction) : ∃ i, s.fetch = some (encode i) ∧ RaisedBy i s e := by
  cases h with
  | noFetch => exact absurd rfl (ha _)
  | illegalWord => exact absurd rfl hi
  | instr hf he => exact ⟨_, hf, he⟩

theorem StepRaises.breakpoint {s : State} (h : StepRaises s .breakpoint) : s.fetch = some 0x00100073#32 := by
  obtain ⟨i, hf, rfl⟩ := h.of_instr nofun nofun
  exact hf

theorem StepRaises.ecall {s : State} {m : PrivMode} (h : StepRaises s (environmentCall m)) :
    s.fetch = some 0x00000073#32 ∧ modeNumber s.priv = modeNumber m := by
  obtain ⟨i, hf, he⟩ := h.of_instr (by cases m <;> exact nofun) (by cases m <;> exact nofun)
  have hi : i = .ecall ∧ s.priv = m := by cases m <;> exact he
  obtain ⟨rfl, rfl⟩ := hi
  exact ⟨hf, rfl⟩

theorem StepRaises.load {s : State} {a : Word} (h : StepRaises s (.loadPageFault a) ∨ StepRaises s (.loadAccessFault a)) :
    ∃ w, s.fetch = some w ∧ opcodeOf w = 0b0000011#7 ∧ a = BitVec.ofInt 64 ((s.x (rs1Of w)).toInt + (immIOf w).toInt) := by
  obtain ⟨i, hf, hop, ha⟩ : ∃ i, s.fetch = some (encode i) ∧ RaisedBy i s (.loadPageFault a) :=
    h.elim (·.of_instr nofun nofun) (·.of_instr nofun nofun)
  exact ⟨_, hf, hop, ha.trans (ofInt_base_add_imm ..).symm⟩

theorem StepRaises.store {s : State} {a : Word} (h : StepRaises s (.storePageFault a) ∨ StepRaises s (.storeAccessFault a)) :
    ∃ w, s.fetch = some w ∧ opcodeOf w = 0b0100011#7 ∧ a = BitVec.ofInt 64 ((s.x (rs1Of w)).toInt + (immSOf w).toInt) := by
  obtain ⟨i, hf, hop, ha⟩ : ∃ i, s.fetch = some (encode i) ∧ RaisedBy i s (.storePageFault a) :=
    h.elim (·.of_instr nofun nofun) (·.of_instr nofun nofun)
  exact ⟨_, hf, hop, ha.trans (ofInt_base_add_imm ..).symm⟩

/-- Settles O38: the exception in `fault_out` was raised by the step (`step_raises_of_faultOut`), and each kind has its one source. -/
theorem faultsComeFromTheirInstructions : Obligations.FaultsComeFromTheirInstructions := by
  intro s t h
  have hr : ∀ {e}, t.faultOut = some e → StepRaises s e := fun he => (step_raises_of_faultOut h he).1
  have hnever : ∀ e : Exception, e.isRaised = false → t.faultOut ≠ some e := fun e hf he => by simp [(hr he).isRaised] at hf
  exact ⟨fun a he => (hr he).accessFault, fun he => (hr he).illegal, fun he => (hr he).breakpoint,
    fun he => StepRaises.ecall (m := .user) (hr he), fun he => StepRaises.ecall (m := .supervisor) (hr he),
    fun he => StepRaises.ecall (m := .hypervisor) (hr he), fun he => StepRaises.ecall (m := .machine) (hr he),
    fun a he => StepRaises.load (he.imp hr hr), fun a he => StepRaises.store (he.imp hr hr),
    fun a => ⟨hnever _ rfl, hnever _ rfl, hnever _ rfl, hnever _ rfl⟩⟩

/-! ### `debug_trap` (R284) -/

/-- `debug_trap` after a step says whether it raised Breakpoint. -/
theorem step_debugTrap_iff {s t : State} (h : step s = .next t) : t.debugTrap = true ↔ t.faultOut = some .breakpoint := by
  obtain ⟨w, e, -, rfl⟩ | ⟨hfault, hdebug⟩ := step_raises_or_silent h
  · simp
  · simp [hfault, hdebug]

/-- Settles O58: only EBREAK raises Breakpoint (`StepRaises.breakpoint`), and it always does. -/
theorem debugTrapOnlyByEbreak : Obligations.DebugTrapOnlyByEbreak := by
  intro s t h
  rw [step_debugTrap_iff h]
  refine ⟨⟨fun he => (step_raises_of_faultOut h he).1.breakpoint, fun hf => ?_⟩, trapsArePrecise s t .breakpoint h⟩
  have hrun := step_of_decode (step_next h).1 hf (decodeOfEncode .ebreak rfl)
  cases h.symm.trans hrun
  exact State.raise_faultOut ..

/-! ### What changes the mode (R282) -/

/-- Raising an exception changes the mode to Machine or not at all. -/
theorem State.raise_priv_of_ne {s : State} {e : Exception} (h : (s.raise e).priv ≠ s.priv) : (s.raise e).priv = .machine := by
  obtain he | ⟨-, -, he⟩ := s.raise_cases e
  · rw [he, State.enterTrap_priv]
  · exact absurd (by rw [he, State.report_priv]) h

/-- An effect that changes the mode is a raised exception or MRET. -/
theorem Effect.priv_changed {i : Instr} {s t : State} (h : Effect i s (.next t)) (hne : t.priv ≠ s.priv) :
    (t.faultOut ≠ none ∧ t.priv = .machine) ∨ (i = .mret ∧ t = s.returnFromTrap) := by
  cases h with
  | raise e => exact .inl ⟨by simp, State.raise_priv_of_ne hne⟩
  | ret hi => exact .inr ⟨hi, rfl⟩
  | retire | jump | csr => exact absurd (by simp [jumpTo, csrUpdate]) hne
  | onlyPc | store => exact absurd rfl hne

/-- Settles O51: a trap changes the mode only to Machine (`State.raise_priv_of_ne`), and an effect only as `Effect.priv_changed` says. -/
theorem modeChangesOnlyByTrapAndMret : Obligations.ModeChangesOnlyByTrapAndMret := by
  refine ⟨fun s t h hne => ?_, fun _ => rfl⟩
  obtain ⟨w, ⟨e, -, rfl⟩ | ⟨i, hf, rfl, hx⟩⟩ := step_cases h
  · exact .inl ⟨by simp, State.raise_priv_of_ne hne⟩
  · obtain htrap | ⟨rfl, rfl⟩ := hx.priv_changed hne
    · exact .inl htrap
    · exact .inr ⟨hf, modeNumber_mstatusMpp s.mstatus⟩

/-! ### What the mode affects (R281) -/

/-- The state in another mode. -/
def State.withMode (s : State) (p : PrivMode) : State := { s with priv := p }

theorem State.setX_withMode (s : State) (p : PrivMode) (rd : Reg) (v : Word) :
    (s.withMode p).setX rd v = (s.setX rd v).withMode p := by
  unfold State.setX
  split <;> rfl

theorem State.retire_withMode (s : State) (p : PrivMode) (rd : Reg) (v : Word) :
    (s.withMode p).retire rd v = (s.retire rd v).withMode p := by
  rw [State.retire, State.setX_withMode]
  rfl

theorem State.setCsr_withMode (s : State) (p : PrivMode) (a : CsrAddr) (v : Word) :
    (s.withMode p).setCsr a v = (s.setCsr a v).withMode p := by
  unfold State.setCsr
  split <;> rfl

theorem State.physWrite_withMode (s : State) (p : PrivMode) (pa : Word) (w : Width) (v : Word) :
    (s.withMode p).physWrite pa w v = (s.physWrite pa w v).map fun t => t.withMode p := by
  rw [State.physWrite, State.physWrite, apply_ite (Option.map _)]
  rfl

theorem State.csr_withMode (s : State) (p : PrivMode) (a : CsrAddr) : (s.withMode p).csr a = s.csr a :=
  State.csr_congr rfl rfl rfl rfl rfl rfl rfl rfl rfl rfl rfl a

/-- A read of a byte depends on memory alone. -/
theorem State.byte_congr {s t : State} (h : t.mem = s.mem) (a : Nat) : t.byte a = s.byte a := congrArg (Memory.get · a) h

/-- The mode plays no part in translation (R80). -/
theorem State.translate_withMode (s : State) (p : PrivMode) (va : Word) : (s.withMode p).translate va = s.translate va :=
  State.translate_congr rfl rfl rfl va

/-- How an instruction ends from `s`, beside how it ends from `s` in the mode `p`. -/
inductive ModeTwins (i : Instr) (s : State) (p : PrivMode) :
    Host.Outcome State Fault Refusal → Host.Outcome State Fault Refusal → Prop
  /-- The mode is carried along. -/
  | plain (t : State) (hpriv : t.priv = s.priv) : ModeTwins i s p (.next t) (.next (t.withMode p))
  /-- An exception is raised; ECALL alone raises another one. -/
  | raise (e f : Exception) (hvalue : f.trapValue = e.trapValue) (hdebug : f = .breakpoint ↔ e = .breakpoint)
      (hsame : i ≠ .ecall → f = e) : ModeTwins i s p (.next (s.raise e)) (.next ((s.withMode p).raise f))
  /-- MRET takes the mode from MPP. -/
  | ret : ModeTwins i s p (.next s.returnFromTrap) (.next s.returnFromTrap)
  | refused (r : Refusal) : ModeTwins i s p (.refused r) (.refused r)

section
variable {i : Instr} (s : State) (p : PrivMode)

theorem ModeTwins.raise_same (e : Exception) : ModeTwins i s p (.next (s.raise e)) (.next ((s.withMode p).raise e)) :=
  .raise e e rfl Iff.rfl fun _ => rfl

theorem modeTwins_retire (rd : Reg) (v : Word) :
    ModeTwins i s p (.next (s.retire rd v)) (.next ((s.withMode p).retire rd v)) := by
  rw [State.retire_withMode]
  exact .plain _ (State.retire_priv ..)

theorem modeTwins_jumpTo (rd : Reg) (target : Word) :
    ModeTwins i s p (.next (jumpTo s rd target)) (.next (jumpTo (s.withMode p) rd target)) := by
  rw [jumpTo, jumpTo, State.setX_withMode]
  exact .plain _ (State.setX_priv ..)

theorem modeTwins_branchIf (taken : Bool) (off : BitVec 13) :
    ModeTwins i s p (.next (branchIf taken off s)) (.next (branchIf taken off (s.withMode p))) := by
  cases taken with
  | true => exact .plain (s.setPc (s.pc + immB off)) rfl
  | false => exact .plain s.advance rfl

theorem modeTwins_csrUpdate (rd : Reg) (a : CsrAddr) (new : Word) :
    ModeTwins i s p (.next (csrUpdate s rd a new)) (.next (csrUpdate (s.withMode p) rd a new)) := by
  rw [csrUpdate, csrUpdate, State.setCsr_withMode, State.retire_withMode]
  exact .plain _ ((State.retire_priv ..).trans (State.setCsr_priv ..))

theorem modeTwins_loadWith (w : Width) (ext : Word → Word) (rd rs1 : Reg) (imm : BitVec 12) :
    ModeTwins i s p (loadWith w ext rd rs1 imm s) (loadWith w ext rd rs1 imm (s.withMode p)) := by
  have hread : (s.withMode p).memRead (effectiveAddress s rs1 imm) w = s.memRead (effectiveAddress s rs1 imm) w := by
    unfold State.memRead
    rw [State.translate_withMode]
    rfl
  unfold loadWith
  rw [show effectiveAddress (s.withMode p) rs1 imm = effectiveAddress s rs1 imm from rfl, hread]
  cases s.memRead (effectiveAddress s rs1 imm) w with
  | done v => exact modeTwins_retire ..
  | raised e => exact .raise_same ..
  | notImplemented => exact .refused _

theorem modeTwins_storeWith (w : Width) (rs1 rs2 : Reg) (imm : BitVec 12) :
    ModeTwins i s p (storeWith w rs1 rs2 imm s) (storeWith w rs1 rs2 imm (s.withMode p)) := by
  unfold storeWith State.memWrite
  rw [show effectiveAddress (s.withMode p) rs1 imm = effectiveAddress s rs1 imm from rfl, State.translate_withMode]
  cases s.translate (effectiveAddress s rs1 imm) with
  | unsupported => exact .refused _
  | fail => exact .raise_same ..
  | ok pa r wr x =>
    cases wr with
    | false => exact .raise_same ..
    | true =>
      simp only [Bool.not_true, Bool.false_eq_true, if_false, State.physWrite_withMode, show (s.withMode p).x rs2 = s.x rs2 from rfl]
      cases hw : s.physWrite pa w (s.x rs2) with
      | none => exact .raise_same ..
      | some t => exact .plain t.advance (by rw [(State.physWrite_some hw).2]; rfl)

end

theorem trapValue_environmentCall (m : PrivMode) : (environmentCall m).trapValue = 0#64 := by cases m <;> rfl

theorem environmentCall_ne_breakpoint (m : PrivMode) : environmentCall m ≠ .breakpoint := by cases m <;> exact nofun

/-- Every instruction but ECALL does the same in every mode. -/
theorem exec_modeTwins (i : Instr) (s : State) (p : PrivMode) : ModeTwins i s p (exec i s) (exec i (s.withMode p)) := by
  cases i with
  | jal | jalr => exact modeTwins_jumpTo ..
  | beq | bne | blt | bge | bltu | bgeu => exact modeTwins_branchIf ..
  | lb | lh | lw | ld | lbu | lhu | lwu => exact modeTwins_loadWith ..
  | sb | sh | sw | sd => exact modeTwins_storeWith ..
  | fence => exact .plain s.advance rfl
  | ecall =>
    exact .raise (environmentCall s.priv) (environmentCall p)
      ((trapValue_environmentCall p).trans (trapValue_environmentCall s.priv).symm)
      (iff_of_false (environmentCall_ne_breakpoint p) (environmentCall_ne_breakpoint s.priv)) fun h => absurd rfl h
  | ebreak => exact .raise_same ..
  | mret => exact .ret
  | csrrw | csrrs | csrrc | csrrwi | csrrsi | csrrci => exact modeTwins_csrUpdate ..
  | _ => exact modeTwins_retire ..

/-- `t`, reached from `s`, and `u`, reached from `s` in the mode `p`, agree in all but the MPP bits that a trap saved and, unless
`sameFault`, in which exception it was; their modes agree unless neither has changed. -/
def AlikeButMode (s : State) (p : PrivMode) (sameFault : Prop) (t u : State) : Prop :=
  u.pc = t.pc ∧ SameRegs t u ∧ SameMem t u ∧ u.params = t.params ∧
    u.debugTrap = t.debugTrap ∧ u.instrOut = t.instrOut ∧ (u.priv = t.priv ∨ (u.priv = p ∧ t.priv = s.priv)) ∧
    (sameFault → u.faultOut = t.faultOut ∧ u.csr 0x342#12 = t.csr 0x342#12) ∧
    (∀ a, a ≠ 0x300#12 → a ≠ 0x342#12 → u.csr a = t.csr a) ∧
    (∀ i < 64, i ≠ 11 → i ≠ 12 → (u.csr 0x300#12).getLsbD i = (t.csr 0x300#12).getLsbD i) ∧
    (t.faultOut = none → u.csr 0x300#12 = t.csr 0x300#12)

/-- Of the CSRs, trap entry writes `mcause` by the kind and `mstatus` by the mode; the others the trap value settles. -/
theorem State.csr_enterTrap_withMode (s : State) (p : PrivMode) {e f : Exception} (hvalue : f.trapValue = e.trapValue) {a : CsrAddr}
    (h300 : a ≠ 0x300#12) (h342 : a ≠ 0x342#12) : ((s.withMode p).enterTrap f).csr a = (s.enterTrap e).csr a := by
  by_cases h341 : a = 0x341#12
  · rw [h341]
    exact Eq.refl s.pc
  by_cases h343 : a = 0x343#12
  · rw [h343]
    exact hvalue
  have ha : a ∉ trapCsrs := by simp [trapCsrs, h300, h341, h342, h343]
  rw [State.csr_enterTrap_other _ _ ha, State.csr_enterTrap_other _ _ ha, State.csr_withMode]

/-- Of `mstatus`, trap entry writes MPP alone by the mode. -/
theorem getLsbD_mstatusOnTrap_mode (v : Word) (m p : PrivMode) {i : Nat} (hi : i < 64) (h11 : i ≠ 11) (h12 : i ≠ 12) :
    (mstatusOnTrap v p).getLsbD i = (mstatusOnTrap v m).getLsbD i := by
  rw [getLsbD_mstatusOnTrap _ _ hi, getLsbD_mstatusOnTrap _ _ hi, if_neg h11, if_neg h11, if_neg h12, if_neg h12]

/-- Raising two exceptions with one trap value in two modes, both breakpoints or neither: taken in both, or held by the gate in both. -/
theorem alikeButMode_raise (s : State) (p : PrivMode) {sameFault : Prop} {e f : Exception} (hvalue : f.trapValue = e.trapValue)
    (hdebug : f = .breakpoint ↔ e = .breakpoint) (hsame : sameFault → f = e) :
    AlikeButMode s p sameFault (s.raise e) ((s.withMode p).raise f) := by
  have hd : decide (f = .breakpoint) = decide (e = .breakpoint) := decide_eq_decide.2 hdebug
  have hfault : sameFault → some f = some e := fun h => congrArg some (hsame h)
  have hcause : sameFault → f.code = e.code := fun h => congrArg Exception.code (hsame h)
  by_cases hgate : NotGated s
  · rw [State.raise_of_notGated hgate, State.raise_of_notGated (s := s.withMode p) hgate]
    refine ⟨rfl, State.x_congr rfl, State.byte_congr rfl, rfl, hd, rfl, .inl rfl, fun h => ⟨hfault h, hcause h⟩, fun a => ?_,
      fun i hi => ?_, fun hnone => absurd hnone (Option.some_ne_none e)⟩
    · exact State.csr_enterTrap_withMode (s.report e) p hvalue
    · exact getLsbD_mstatusOnTrap_mode s.mstatus s.priv p hi
  · rw [State.raise_of_gated hgate, State.raise_of_gated (s := s.withMode p) hgate]
    exact ⟨rfl, fun _ => rfl, fun _ => rfl, rfl, hd, rfl, .inr ⟨rfl, rfl⟩, fun h => ⟨hfault h, rfl⟩, fun _ _ _ => rfl,
      fun _ _ _ _ => rfl, fun hnone => absurd hnone (Option.some_ne_none e)⟩

/-- Outcomes of one instruction in two modes agree as claims speak of it. -/
theorem ModeTwins.alike {i : Instr} {s t : State} {p : PrivMode} {o : Host.Outcome State Fault Refusal}
    (h : ModeTwins i s p (.next t) o) : ∃ u, o = .next u ∧ AlikeButMode s p (i ≠ .ecall) t u := by
  cases h with
  | plain _ hpriv =>
    exact ⟨_, rfl, rfl, fun _ => rfl, fun _ => rfl, rfl, rfl, rfl, .inr ⟨rfl, hpriv⟩, fun _ => ⟨rfl, rfl⟩, fun _ _ _ => rfl,
      fun _ _ _ _ => rfl, fun _ => rfl⟩
  | raise e f hvalue hdebug hsame => exact ⟨_, rfl, alikeButMode_raise s p hvalue hdebug hsame⟩
  | ret =>
    exact ⟨_, rfl, rfl, fun _ => rfl, fun _ => rfl, rfl, rfl, rfl, .inl rfl, fun _ => ⟨rfl, rfl⟩, fun _ _ _ => rfl,
      fun _ _ _ _ => rfl, fun _ => rfl⟩

/-- Settles O52: a failed fetch and an illegal word raise one exception in every mode, and of the instructions only ECALL raises another
(`exec_modeTwins`). -/
theorem modeAffectsOnlyEcallAndMpp : Obligations.ModeAffectsOnlyEcallAndMpp := by
  intro s t p h
  change ∃ u, step (s.withMode p) = .next u ∧ AlikeButMode s p (s.fetch ≠ some 0x00000073#32) t u
  have halike : ∀ (r : State) e, AlikeButMode r p (s.fetch ≠ some 0x00000073#32) (r.raise e) ((r.withMode p).raise e) :=
    fun r e => alikeButMode_raise r p rfl Iff.rfl fun _ => rfl
  obtain ⟨hl, ⟨hf, rfl⟩ | ⟨w, e, hf, hd, rfl⟩ | ⟨w, i, hf, hd, hx⟩⟩ := step_next h
  · exact ⟨_, step_of_noFetch (s := s.withMode p) hl hf, halike s.beginStep _⟩
  · exact ⟨_, step_of_illegal (s := s.withMode p) hl hf hd, halike (s.beginStep.latchInstr w) _⟩
  · obtain ⟨u, hu, hpc, hregs, hmem, hparams, hdebug, hinstr, hpriv, hfault, hrest⟩ :=
      (hx ▸ exec_modeTwins i (s.beginStep.latchInstr w) p).alike
    refine ⟨u, (step_of_decode (s := s.withMode p) hl hf hd).trans hu, hpc, hregs, hmem, hparams, hdebug, hinstr, hpriv,
      fun hne => hfault ?_, hrest⟩
    rintro rfl
    exact hne (by rw [hf, ← encode_of_decode hd]; rfl)

end Sys2Proof.Machine
end

section
/-! PROOF. The statements of 70_reset_and_hazards: loading an image (R302), every step completing (R310, R314), and running until a
debugger trap (R311, R312). -/

namespace Sys2Proof.Machine

/-! ### Loading an image (R302) -/

/-- The loader changes memory alone. -/
theorem State.loadImage_only_mem {image : List Byte} :
    ∀ {s t : State} {pa : Word}, s.loadImage pa image = some t → ∃ m, t = { s with mem := m } := by
  induction image with
  | nil =>
    intro s t pa h
    cases h
    exact ⟨s.mem, rfl⟩
  | cons b rest ih =>
    intro s t pa h
    rw [State.loadImage] at h
    split at h
    · cases h
    · rename_i u hu
      obtain ⟨m, rfl⟩ := ih h
      exact ⟨m, by rw [(State.physWrite_some hu).2]⟩

/-- A byte after a physical write of one byte. -/
theorem State.byte_of_physWrite_byte {s t : State} {pa v : Word} (h : s.physWrite pa .byte v = some t) (a : Nat) :
    t.byte a = if a = pa.toNat then v.setWidth 8 else s.byte a := by
  rw [(State.physWrite_some h).2]
  exact Memory.get_set ..

/-- A byte after loading: the image's where it lies, the old one elsewhere. -/
theorem State.byte_of_loadImage {image : List Byte} :
    ∀ {s t : State} {n : Nat}, n + image.length ≤ 2 ^ 64 → s.loadImage (BitVec.ofNat 64 n) image = some t →
      ∀ a, t.byte a = if a < n then s.byte a else (image[a - n]?).getD (s.byte a) := by
  induction image with
  | nil =>
    intro s t n _ h a
    cases h
    simp
  | cons b rest ih =>
    intro s t n hfit h a
    rw [List.length_cons] at hfit
    have hn : (BitVec.ofNat 64 n).toNat = n := by rw [BitVec.toNat_ofNat, Nat.mod_eq_of_lt (by omega)]
    rw [State.loadImage] at h
    split at h
    · cases h
    · rename_i u hu
      have hfirst := State.byte_of_physWrite_byte hu a
      have hrest := ih (n := n + 1) (by omega) (by rwa [BitVec.ofNat_add]) a
      rw [hn] at hfirst
      rw [hrest, hfirst]
      obtain hlt | rfl | ⟨k, rfl⟩ : a < n ∨ a = n ∨ ∃ k, a = n + 1 + k := by
        obtain h | h | h := Nat.lt_trichotomy a n
        · exact .inl h
        · exact .inr (.inl h)
        · exact .inr (.inr ⟨a - (n + 1), by omega⟩)
      · rw [if_pos (by omega), if_neg (by omega), if_pos hlt]
      · simp
      · rw [if_neg (by omega), if_neg (by omega), if_neg (by omega)]
        rw [show n + 1 + k - n = k + 1 by omega, List.getElem?_cons_succ, Nat.add_sub_cancel_left]

/-- Settles O15: where the image lies and outside it (`State.byte_of_loadImage`), and every other field (`State.loadImage_only_mem`). -/
theorem loadImageStoresImage : Obligations.LoadImageStoresImage := by
  intro s t pa image hfit h
  have hbyte := State.byte_of_loadImage hfit (by rwa [BitVec.ofNat_toNat, BitVec.setWidth_eq])
  obtain ⟨m, rfl⟩ := State.loadImage_only_mem h
  refine ⟨fun k b hk => ?_, fun a ha => ?_, rfl, fun _ => rfl, fun _ => rfl, rfl, rfl, rfl, rfl, rfl⟩
  · rw [hbyte, if_neg (by omega), Nat.add_sub_cancel_left, hk, Option.getD_some]
  · rw [hbyte]
    obtain hlt | hge := ha
    · exact if_pos hlt
    · rw [if_neg (by omega), List.getElem?_eq_none (by omega), Option.getD_none]

/-! ### Every step completes (R310, R314) -/

/-- Settles O47: there is no fault to end in, and a state that is ready meets neither reason for a refusal (`step_refused`). -/
theorem stepCompletes : Obligations.StepCompletes := by
  refine ⟨fun s ⟨hl, hmode⟩ => ?_, fun _ r => nomatch r⟩
  cases h : step s with
  | next t => exact ⟨t, rfl⟩
  | fault r => exact nomatch r
  | refused r =>
    obtain ⟨hnl, -⟩ | ⟨-, w, -, -, hnm⟩ := step_refused h
    · exact absurd hl hnl
    · exact absurd hmode hnm

/-! ### Running until a debugger trap (R311, R312) -/

/-- A run makes one step, and goes on from there where that did not end with `debug_trap`. -/
theorem runUntilDebugTrap_succ {n : Nat} {s t : State} :
    runUntilDebugTrap (n + 1) s = some t ↔
      ∃ v, step s = .next v ∧ ((v.debugTrap = true ∧ v = t) ∨ (v.debugTrap = false ∧ runUntilDebugTrap n v = some t)) := by
  rw [runUntilDebugTrap]
  cases step s with
  | next v => cases hd : v.debugTrap <;> simp [hd]
  | fault | refused => simp

/-- So do the steps of a count. -/
theorem stepTimes_succ {n : Nat} {s u : State} :
    stepTimes (n + 1) s = .next u ↔
      ∃ v, step s = .next v ∧ ((v.debugTrap = true ∧ v = u) ∨ (v.debugTrap = false ∧ stepTimes n v = .next u)) := by
  rw [stepTimes]
  cases step s with
  | next v => cases hd : v.debugTrap <;> simp [hd]
  | fault | refused => simp

/-- Settles O59: by induction on the budget, the run and the count of steps taking their first step together (`runUntilDebugTrap_succ`,
`stepTimes_succ`). -/
theorem runStopsAtDebugTrap : Obligations.RunStopsAtDebugTrap := by
  intro n
  induction n with
  | zero => exact fun s t => ⟨nofun, fun ⟨k, hk, _⟩ => absurd hk k.not_lt_zero⟩
  | succ n ih =>
    intro s t
    rw [runUntilDebugTrap_succ]
    constructor
    · rintro ⟨v, hv, ⟨hd, rfl⟩ | ⟨hd, hrun⟩⟩
      · exact ⟨0, n.succ_pos, s, rfl, .inl rfl, hv, hd⟩
      · obtain ⟨k, hk, u, hu, hsilent, hstep, ht⟩ := (ih v t).1 hrun
        have hud : u.debugTrap = false := by
          obtain rfl | hud := hsilent
          · cases hu
            exact hd
          · exact hud
        exact ⟨k + 1, Nat.succ_lt_succ hk, u, stepTimes_succ.2 ⟨v, hv, .inr ⟨hd, hu⟩⟩, .inr hud, hstep, ht⟩
    · rintro ⟨k, hk, u, hu, hsilent, hstep, ht⟩
      cases k with
      | zero =>
        cases hu
        exact ⟨t, hstep, .inl ⟨ht, rfl⟩⟩
      | succ k =>
        have hud := hsilent.resolve_left k.succ_ne_zero
        obtain ⟨v, hv, ⟨hd, rfl⟩ | ⟨hd, hu⟩⟩ := stepTimes_succ.1 hu
        · simp [hd] at hud
        · exact ⟨v, hv, .inr ⟨hd, (ih v t).2 ⟨k, Nat.lt_of_succ_lt_succ hk, u, hu, .inr hud, hstep, ht⟩⟩⟩

end Sys2Proof.Machine
end
